-- ==== Sys2Proof/Word.lean ====
section
/-!
DEFINITION. The word types of the KD630 and the names that every file shares: bytes, device times, sequences, the three
motor channels, the three phases and the two switches of a phase.
-/

namespace Sys2Proof

/-- A character of the control link (ch.10 R161). -/
abbrev Byte := BitVec 8

/-- A device time: a count of ticks of 12.5 ns, wrapping modulo 2^32 (ch.1 R1). -/
abbrev Time := BitVec 32

/-- A period sequence, wrapping modulo 65536 (ch.1 R2, R6). -/
abbrev Seq := BitVec 16

/-- A motor channel. -/
inductive Chan where
  | m1 | m2 | m3
deriving DecidableEq, Repr, Inhabited

/-- A phase of a bridge. -/
inductive Phase where
  | u | v | w
deriving DecidableEq, Repr, Inhabited

/-- One of the two switches of a phase. -/
inductive Side where
  | top | bottom
deriving DecidableEq, Repr, Inhabited

/-- All channels, in the order M1, M2, M3. -/
def Chan.all : List Chan := [.m1, .m2, .m3]

/-- All phases, in the order U, V, W. -/
def Phase.all : List Phase := [.u, .v, .w]

end Sys2Proof
end

