-- ==== Sys2Proof/Syntax.lean ====
section
/-!
DEFINITION. The commands of the KD630: one constructor per row of spec/opcode_table.json.
A request row is the link's taking of one frame (ch.10 R169): its operands are the frame's tag and payload characters, so
that a payload of a wrong length and a field out of its range are operands like any other. The other rows are the events
that happen to the block; their operands say which channel, phase or slot, and what comes from outside.
-/

namespace Sys2Proof

/-- A command of the KD630. -/
inductive Instr where
  /-- IDENT (R16). -/
  | ident (tag : Byte) (payload : List Byte)
  /-- SET_LINK (R162). -/
  | setLink (tag : Byte) (payload : List Byte)
  /-- SET_LINK_IN_FORCE (R162): the last bit of a SET_LINK reply has left. -/
  | setLinkInForce
  /-- RESET (R14). -/
  | reset (tag : Byte) (payload : List Byte)
  /-- MESSAGE_RESET (R14): the last bit of a RESET reply has left. -/
  | messageReset
  /-- SLEEP (R10). -/
  | sleep (tag : Byte) (payload : List Byte)
  /-- QUIET_ENTRY (R11): the last bit of the SLEEP reply has left. -/
  | quietEntry
  /-- DEVICE_STATUS (R179): a STATUS frame whose selector is 0, or whose length is not 2. -/
  | deviceStatus (tag : Byte) (payload : List Byte)
  /-- CHANNEL_STATUS (R40): a STATUS frame with another selector. -/
  | channelStatus (tag : Byte) (payload : List Byte)
  /-- RECOVER (R159). -/
  | recover (tag : Byte) (payload : List Byte)
  /-- SUPERVISE (R152). -/
  | supervise (tag : Byte) (payload : List Byte)
  /-- HEARTBEAT (R153). -/
  | heartbeat (tag : Byte) (payload : List Byte)
  /-- CARRIER (R4, R5). -/
  | carrier (tag : Byte) (payload : List Byte)
  /-- CONVERTER (R103). -/
  | converter (tag : Byte) (payload : List Byte)
  /-- AUX_PLAN (R118). -/
  | auxPlan (tag : Byte) (payload : List Byte)
  /-- LIMITS (R148). -/
  | limits (tag : Byte) (payload : List Byte)
  /-- CHANNEL_SETUP (R19). -/
  | channelSetup (tag : Byte) (payload : List Byte)
  /-- ACTIVATE (R20). -/
  | activate (tag : Byte) (payload : List Byte)
  /-- PROFILE (R80). -/
  | profile (tag : Byte) (payload : List Byte)
  /-- CALIBRATE (R36). -/
  | calibrate (tag : Byte) (payload : List Byte)
  /-- START (R24). -/
  | start (tag : Byte) (payload : List Byte)
  /-- STOP with mode COAST (R27), and a STOP frame whose mode is undefined or whose length is wrong (R29). -/
  | stopCoast (tag : Byte) (payload : List Byte)
  /-- STOP with mode BRAKE (R28). -/
  | stopBrake (tag : Byte) (payload : List Byte)
  /-- VECTOR_SET (R42). -/
  | vectorSet (tag : Byte) (payload : List Byte)
  /-- STEP_SET (R77). -/
  | stepSet (tag : Byte) (payload : List Byte)
  /-- CLEAR_TRIP (R31). -/
  | clearTrip (tag : Byte) (payload : List Byte)
  /-- UNKNOWN_TYPE (R169): a taken frame whose type names no request. -/
  | unknownType (type tag : Byte) (payload : List Byte)
  /-- POWER_ON_RESET (R13): supply becomes valid (true) or is lost (false). -/
  | powerOnReset (valid : Bool)
  /-- PIN_RESET (R13): the RESET input goes low. -/
  | pinReset
  /-- START_UP_END (R15). -/
  | startUpEnd
  /-- MASTER_PERIOD_START (R2). -/
  | masterPeriodStart
  /-- BUS_STALE (R147). -/
  | busStale
  /-- CHANNEL_PERIOD_START (R23). -/
  | channelPeriodStart (c : Chan)
  /-- STALE (R55). -/
  | stale (c : Chan)
  /-- STALE_TRIP (R56). -/
  | staleTrip (c : Chan)
  /-- CAL_TIMEOUT (R39). -/
  | calTimeout (c : Chan)
  /-- HALF_PERIOD_POINT (R7, R84 to R87). -/
  | halfPeriodPoint (c : Chan)
  /-- LOST_SYNC (R97). -/
  | lostSync (c : Chan)
  /-- COMMUTATION_DUE (R84). -/
  | commutationDue (c : Chan)
  /-- GATE_EDGE (R64): the next plan interval boundary of a phase. -/
  | gateEdge (c : Chan) (x : Phase)
  /-- PENDING_TURN_ON (R65). -/
  | pendingTurnOn (c : Chan) (x : Phase) (side : Side)
  /-- CONVERSION_START (R108). -/
  | conversionStart
  /-- CONVERSION_COMPLETE (R110), with the raw code the converter read. -/
  | conversionComplete (raw : BitVec 12)
  /-- CAL_DONE (R38). -/
  | calDone (c : Chan)
  /-- HANDOVER (R93): the Q-th consecutive qualifying crossing, found at the given instant. -/
  | handover (c : Chan) (tzc : Time)
  /-- LATE (R113), of the channel entry in the given slot. -/
  | late (slot : Nat)
  /-- CURRENT_LIMIT (R132). -/
  | currentLimit (c : Chan)
  /-- PERIOD_REPORT (R133). -/
  | periodReport (c : Chan)
  /-- FAULT_INPUT_ASSERTION (R142). -/
  | faultInputAssertion (c : Chan)
  /-- FAULT_INPUT_RELEASE (R141). -/
  | faultInputRelease (c : Chan)
  /-- SLOW_STEP (R154). -/
  | slowStep
  /-- WINDOW_EXPIRY (R156). -/
  | windowExpiry
  /-- CHARACTER_ARRIVAL (R165): a character, and whether its stop bit was low. -/
  | characterArrival (char : Byte) (framingError : Bool)
  /-- WAKE_COMPLETE (R12). -/
  | wakeComplete
  /-- FRAME_TIMEOUT (R166). -/
  | frameTimeout
  /-- FRAME_SENT (R164). -/
  | frameSent
  /-- GAP_END (R164). -/
  | gapEnd
  /-- RESET_RELEASE (R13). -/
  | resetRelease
deriving DecidableEq, Repr, Inhabited

end Sys2Proof
end

