-- ==== Sys2Proof/Decode.lean ====
section
/-!
DEFINITION. From a frame to its row (ch.11 Table 11-2), and the host's decodeTableWord.
The table of commands gives no row any bits, so no word spells a command and `decodeTableWord` answers none; a command is
spelled on the link by a frame, and `Frame.instr` is the link's reading of a frame's type (ch.10 R169).
-/

namespace Sys2Proof

/-- A checked frame of the control link, less its marker, length and CRC (ch.10 R163, ch.11 Table 11-1). -/
structure Frame where
  type : Byte
  tag : Byte
  payload : List Byte
deriving DecidableEq, Repr, Inhabited

/-- The row that a taken frame is (ch.11 Table 11-2). STOP and STATUS have two rows each, told apart by the mode and by the
selector (log 19). -/
def Frame.instr (f : Frame) : Instr :=
  match f.type.toNat with
  | 0x01 => .ident f.tag f.payload
  | 0x02 => .setLink f.tag f.payload
  | 0x03 => .reset f.tag f.payload
  | 0x04 => .sleep f.tag f.payload
  | 0x05 =>
    match f.payload with
    | [sel, _] => if sel = 0 then .deviceStatus f.tag f.payload else .channelStatus f.tag f.payload
    | _ => .deviceStatus f.tag f.payload
  | 0x06 => .recover f.tag f.payload
  | 0x07 => .supervise f.tag f.payload
  | 0x08 => .heartbeat f.tag f.payload
  | 0x10 => .carrier f.tag f.payload
  | 0x11 => .converter f.tag f.payload
  | 0x12 => .auxPlan f.tag f.payload
  | 0x13 => .limits f.tag f.payload
  | 0x20 => .channelSetup f.tag f.payload
  | 0x21 => .activate f.tag f.payload
  | 0x22 => .profile f.tag f.payload
  | 0x23 => .calibrate f.tag f.payload
  | 0x24 => .start f.tag f.payload
  | 0x25 =>
    match f.payload with
    | [_, mode] => if mode = 1 then .stopBrake f.tag f.payload else .stopCoast f.tag f.payload
    | _ => .stopCoast f.tag f.payload
  | 0x26 => .vectorSet f.tag f.payload
  | 0x27 => .stepSet f.tag f.payload
  | 0x28 => .clearTrip f.tag f.payload
  | _ => .unknownType f.type f.tag f.payload

/-- The type code of a request row (ch.11 Table 11-2); the model's own events have none. -/
def Instr.requestCode : Instr → Option Byte
  | .ident _ _ => some 0x01
  | .setLink _ _ => some 0x02
  | .reset _ _ => some 0x03
  | .sleep _ _ => some 0x04
  | .deviceStatus _ _ => some 0x05
  | .channelStatus _ _ => some 0x05
  | .recover _ _ => some 0x06
  | .supervise _ _ => some 0x07
  | .heartbeat _ _ => some 0x08
  | .carrier _ _ => some 0x10
  | .converter _ _ => some 0x11
  | .auxPlan _ _ => some 0x12
  | .limits _ _ => some 0x13
  | .channelSetup _ _ => some 0x20
  | .activate _ _ => some 0x21
  | .profile _ _ => some 0x22
  | .calibrate _ _ => some 0x23
  | .start _ _ => some 0x24
  | .stopCoast _ _ => some 0x25
  | .stopBrake _ _ => some 0x25
  | .vectorSet _ _ => some 0x26
  | .stepSet _ _ => some 0x27
  | .clearTrip _ _ => some 0x28
  | _ => none

/-- The frame that a request row is (ch.11 Table 11-2); the model's own events are none. -/
def Instr.frame : Instr → Option Frame
  | .ident tag payload => some ⟨0x01, tag, payload⟩
  | .setLink tag payload => some ⟨0x02, tag, payload⟩
  | .reset tag payload => some ⟨0x03, tag, payload⟩
  | .sleep tag payload => some ⟨0x04, tag, payload⟩
  | .deviceStatus tag payload => some ⟨0x05, tag, payload⟩
  | .channelStatus tag payload => some ⟨0x05, tag, payload⟩
  | .recover tag payload => some ⟨0x06, tag, payload⟩
  | .supervise tag payload => some ⟨0x07, tag, payload⟩
  | .heartbeat tag payload => some ⟨0x08, tag, payload⟩
  | .carrier tag payload => some ⟨0x10, tag, payload⟩
  | .converter tag payload => some ⟨0x11, tag, payload⟩
  | .auxPlan tag payload => some ⟨0x12, tag, payload⟩
  | .limits tag payload => some ⟨0x13, tag, payload⟩
  | .channelSetup tag payload => some ⟨0x20, tag, payload⟩
  | .activate tag payload => some ⟨0x21, tag, payload⟩
  | .profile tag payload => some ⟨0x22, tag, payload⟩
  | .calibrate tag payload => some ⟨0x23, tag, payload⟩
  | .start tag payload => some ⟨0x24, tag, payload⟩
  | .stopCoast tag payload => some ⟨0x25, tag, payload⟩
  | .stopBrake tag payload => some ⟨0x25, tag, payload⟩
  | .vectorSet tag payload => some ⟨0x26, tag, payload⟩
  | .stepSet tag payload => some ⟨0x27, tag, payload⟩
  | .clearTrip tag payload => some ⟨0x28, tag, payload⟩
  | .unknownType type tag payload => some ⟨type, tag, payload⟩
  | _ => none

/-- The type codes that name a request (ch.11 Table 11-2). -/
def requestTypes : List Byte :=
  [0x01, 0x02, 0x03, 0x04, 0x05, 0x06, 0x07, 0x08, 0x10, 0x11, 0x12, 0x13,
   0x20, 0x21, 0x22, 0x23, 0x24, 0x25, 0x26, 0x27, 0x28]

/-- The command a word spells by the table's bits: the table gives no row any bits. -/
def decodeTableWord (_nbits _w : Nat) : Option Instr := none

end Sys2Proof
end

