-- ==== Sys2Proof/Machine/State.lean ====
section
/-!
DEFINITION. The state of the KD630 as plain data, block by block in the order of the manual's block overview, and its value
right after reset. Ranges in the docstrings are the spec's; a count that the spec wraps is a bit vector, any other a `Nat`.
-/

namespace Sys2Proof.Machine

open Sys2Proof

/-! ### Three of a kind -/

/-- One value per motor channel. -/
structure PerChan (α : Type) where
  m1 : α
  m2 : α
  m3 : α
deriving DecidableEq, Repr, Inhabited

/-- One value per phase. -/
structure PerPhase (α : Type) where
  u : α
  v : α
  w : α
deriving DecidableEq, Repr, Inhabited

def PerChan.get {α : Type} (p : PerChan α) : Chan → α
  | .m1 => p.m1
  | .m2 => p.m2
  | .m3 => p.m3

def PerChan.set {α : Type} (p : PerChan α) (c : Chan) (a : α) : PerChan α :=
  match c with
  | .m1 => { p with m1 := a }
  | .m2 => { p with m2 := a }
  | .m3 => { p with m3 := a }

def PerPhase.get {α : Type} (p : PerPhase α) : Phase → α
  | .u => p.u
  | .v => p.v
  | .w => p.w

def PerPhase.set {α : Type} (p : PerPhase α) (x : Phase) (a : α) : PerPhase α :=
  match x with
  | .u => { p with u := a }
  | .v => { p with v := a }
  | .w => { p with w := a }

/-! ### Names the spec fixes (ch.11 Table 11-5, Table 11-6) -/

/-- Device state (R9). -/
inductive DevState where
  | active | quiet | locked
deriving DecidableEq, Repr, Inhabited

/-- Reset cause (R15). -/
inductive Cause where
  | power | pin | message
deriving DecidableEq, Repr, Inhabited

/-- Channel state (ch.2 2.1). -/
inductive ChanState where
  | unconfigured | stopped | calibrating | vector | align | ramp | closed | braking | tripped
deriving DecidableEq, Repr, Inhabited

/-- Kind of a channel (Table 2-1 field 1). -/
inductive Kind where
  | vector | step
deriving DecidableEq, Repr, Inhabited

/-- Safe state OPEN (all six off) or SHORT (bottoms on), Table 2-1 field 6. -/
inductive SafeState where
  | openAll | short
deriving DecidableEq, Repr, Inhabited

/-- Direction of a step run (R76). -/
inductive Direction where
  | forward | reverse
deriving DecidableEq, Repr, Inhabited

/-- Kind of a profile segment (ch.5 5.1). -/
inductive SegKind where
  | align | ramp
deriving DecidableEq, Repr, Inhabited

/-- Kind of a commutation compare (ch.5 5.1). -/
inductive CompareKind where
  | forced | predicted | blind
deriving DecidableEq, Repr, Inhabited

/-- Source of an aux entry (R116). -/
inductive AuxSource where
  | bus | temp | spare1 | spare2
deriving DecidableEq, Repr, Inhabited

/-- Purpose of a sample request (R104). -/
inductive Purpose where
  | shuntA | shuntB | sense | cal
  | aux (src : AuxSource)
deriving DecidableEq, Repr, Inhabited

/-- Trip cause (R140). -/
inductive TripCause where
  | faultInput | currentLimit | busOver | busUnder | temperature | stale | lostSync | supervision
deriving DecidableEq, Repr, Inhabited

/-- Event code (Table 11-6). -/
inductive EventCode where
  | resetDone | linkError | trip | stale | startFailed | handover | blindStep | calDone | calFailed
  | supervisionLate | supervisionSequence | supervisionTrip | busStale | tempWarn
deriving DecidableEq, Repr, Inhabited

/-- Result code of a reply (R169). -/
inductive ResultCode where
  | ok | clamped | badLength | unknown | badValue | wrongState | conflict | locked | busy | noSetpoint | faultActive
deriving DecidableEq, Repr, Inhabited

/-- Bus condition (R145). -/
inductive BusCond where
  | normal | overLimit | underLimit
deriving DecidableEq, Repr, Inhabited

/-- Temperature condition (R146). -/
inductive TempCond where
  | normal | warm | hot
deriving DecidableEq, Repr, Inhabited

/-- Link rate (Table 11-5). -/
inductive Rate where
  | r500k | r1M | r2M | r4M
deriving DecidableEq, Repr, Inhabited

/-! ### Power, reset and timebase (ch.1) -/

/-- Where the device stands with respect to reset (R13): `off` without supply, `held` while RESET is low, `startUp` with the
ticks of the 2 ms still to pass, `running`. -/
inductive PowerPhase where
  | off
  | held
  | startUp (left : Nat)
  | running
deriving DecidableEq, Repr, Inhabited

/-- Supply, RESET pin and the reset in progress (R13, R15). -/
structure Power where
  /-- The supply is valid. -/
  supply : Bool
  /-- The RESET input is low. -/
  pinLow : Bool
  phase : PowerPhase
  /-- Supply became valid since the last completed start-up (R15). -/
  supplyNew : Bool
  /-- The cause that the end of start-up records unless supply became valid (R15). -/
  nextCause : Cause
deriving DecidableEq, Repr, Inhabited

/-- The timebase (ch.1). -/
structure Timebase where
  /-- Device time (R1). -/
  now : Time
  /-- Half-period H, 1000..10000 (R3). -/
  h : Nat
  /-- Dead time D, 0..255 (R3). -/
  d : Nat
  /-- Master carrier count, 0..H. -/
  count : Nat
  /-- The master carrier counts up. -/
  up : Bool
  /-- Master period sequence (R2). -/
  masterSeq : Seq
  /-- Device time of the start of the current master period: master period time is `now` less this. -/
  masterStart : Time
  /-- Master period starts since the carrier restart, counted up to 2 (the model's own, for R8). -/
  masterTaken : Nat
  /-- Device time of the next master period start (R2). -/
  masterNext : Time
  /-- Sequence the next master period start carries (R2). -/
  masterNextSeq : Seq
  /-- Device state (R9). -/
  dev : DevState
  /-- Recorded reset cause (R15). -/
  cause : Cause
  /-- QUIET entry is pending (R10). -/
  quietPending : Bool
  /-- A supervision trip has abandoned the pending QUIET entry (the model's own, for R10 and R157). -/
  quietDropped : Bool
  /-- Message reset is pending (R14). -/
  resetPending : Bool
  /-- Ticks left of a wake in progress, 200 µs long (R12). -/
  wakeLeft : Option Nat
deriving DecidableEq, Repr, Inhabited

/-! ### Channel configuration and setpoints (ch.2) -/

/-- A configuration record, Table 2-1. -/
structure ConfigRecord where
  kind : Kind
  offset : Nat
  stretch : Bool
  /-- Minimum window W. -/
  window : Nat
  /-- Sample lead L. -/
  lead : Nat
  safe : SafeState
  curLimit : Nat
  limitPeriods : Nat
  /-- Report interval R. -/
  report : Nat
  s1 : Nat
  s2 : Nat
  advance : Nat
  /-- Blanking B. -/
  blanking : Nat
  missLimit : Nat
  /-- Handover Q. -/
  q : Nat
  senseTol : Nat
  /-- Duty ceiling. -/
  ceiling : Nat
deriving DecidableEq, Repr, Inhabited

/-- The reset column of Table 2-1. -/
def ConfigRecord.reset : ConfigRecord where
  kind := .vector
  offset := 0
  stretch := true
  window := 200
  lead := 100
  safe := .openAll
  curLimit := 4095
  limitPeriods := 3
  report := 0
  s1 := 64
  s2 := 256
  advance := 0
  blanking := 2
  missLimit := 3
  q := 6
  senseTol := 200
  ceiling := 62259

/-- The seven live fields (Table 2-1, R22). -/
structure LiveValues where
  curLimit : Nat
  limitPeriods : Nat
  report : Nat
  s1 : Nat
  s2 : Nat
  advance : Nat
  ceiling : Nat
deriving DecidableEq, Repr, Inhabited

/-- An unapplied setpoint (R34): amplitude, rate and optional angle of VECTOR_SET, or duty and optional advance of STEP_SET. -/
inductive Setpoint where
  | vector (amp : Nat) (rate : Int) (theta : Option Nat)
  | step (duty : Nat) (advance : Option Nat)
deriving DecidableEq, Repr, Inhabited

/-! ### Vector modulator (ch.3) and step sequencer (ch.5) -/

/-- The vector modulator of a channel (R41). -/
structure VectorMod where
  /-- Amplitude in use A, 0..37837. -/
  amp : Nat
  /-- Rate in use ω, in 1/65536 au per period. -/
  rate : Int
  /-- Angle accumulator as a whole, 0..201326591: integer part times 65536 plus fraction (R45). -/
  acc : Nat
  /-- Staleness age, 0..4095. -/
  age : Nat
  /-- Stale episode marker. -/
  marker : Bool
deriving DecidableEq, Repr, Inhabited

/-- A segment of the start-up profile (ch.5 5.1). -/
structure Segment where
  kind : SegKind
  duty : Nat
  /-- Step time t0 in units of 10 µs. -/
  t0 : Nat
  /-- Repeat count n. -/
  repeats : Nat
  /-- End step time t1, or absent. -/
  t1 : Option Nat
deriving DecidableEq, Repr, Inhabited

/-- The commutation compare (R84). -/
structure Compare where
  due : Time
  kind : CompareKind
  /-- Its due instant has been reached. -/
  reached : Bool
deriving DecidableEq, Repr, Inhabited

/-- The step sequencer of a channel (R75). -/
structure StepSeq where
  /-- Step index, 0..5. -/
  index : Nat
  dir : Direction
  /-- The sixteen places of the start-up profile. -/
  profile : List (Option Segment)
  /-- Run range. -/
  first : Nat
  last : Nat
  /-- Current segment index. -/
  seg : Nat
  /-- Forced step number j within the current RAMP segment. -/
  j : Nat
  /-- Duty in use. -/
  duty : Nat
  /-- Advance in use. -/
  advance : Nat
  /-- Time of the last commutation. -/
  lastComm : Option Time
  compare : Option Compare
  /-- Last zero crossing. -/
  lastZc : Option Time
  /-- A crossing has been found in the current step. -/
  found : Bool
  /-- Previous usable result of the step: conversion start instant and difference s. -/
  prev : Option (Time × Int)
  /-- Blanking remaining. -/
  blanking : Nat
  t60 : Nat
  /-- Prescaler P. -/
  p : Nat
  /-- Miss count. -/
  miss : Nat
  /-- Qualified-step count. -/
  qualified : Nat
deriving DecidableEq, Repr, Inhabited

/-! ### Plans (ch.2 R32, ch.3 R54, ch.4 Table 4-1) -/

/-- The compare value of a phase: integer part, sixteenths, dithered value C (R51, R52). -/
structure PhaseCompare where
  int : Nat
  six : Nat
  c : Nat
deriving DecidableEq, Repr, Inhabited

/-- The vector part of a plan (R54) as the edge placer completes it (R59 to R62). -/
structure VectorPlan where
  angleInt : Nat
  angleFrac : Nat
  amp : Nat
  duty : PerPhase Nat
  dither : Nat
  cmp : PerPhase PhaseCompare
  /-- Sort order. -/
  first : Phase
  middle : Phase
  last : Phase
  /-- Up-compares and down-compares. -/
  up : PerPhase Nat
  dn : PerPhase Nat
  /-- Windows A and B after stretch. -/
  winA : Nat
  winB : Nat
  stretchedFirst : Bool
  stretchedLast : Bool
  shortA : Bool
  shortB : Bool
deriving DecidableEq, Repr, Inhabited

/-- The step part of a plan (R53, R67, R68, R72). The roles are those of the step index (R76). -/
structure StepPlan where
  index : Nat
  duty : Nat
  dither : Nat
  cmp : PhaseCompare
  shortA : Bool
  senseShort : Bool
deriving DecidableEq, Repr, Inhabited

/-- What a plan does with the gates. -/
inductive PlanBody where
  | vector (p : VectorPlan)
  | step (p : StepPlan)
  | cal
deriving DecidableEq, Repr, Inhabited

/-- A sample request of a plan (ch.4 4.7): purpose, due period time, tolerance. -/
structure PlanRequest where
  purpose : Purpose
  due : Nat
  tol : Nat
deriving DecidableEq, Repr, Inhabited

/-- A plan (R32). -/
structure Plan where
  seq : Seq
  body : PlanBody
  requests : List PlanRequest
deriving DecidableEq, Repr, Inhabited

/-! ### Gates (ch.4) -/

/-- The last turn-off of a switch: its instant, and the dead time D in force then (R3, R65, R139). -/
structure TurnOff where
  time : Time
  d : Nat
deriving DecidableEq, Repr, Inhabited

/-- The two gate outputs of a phase with their last turn-offs and pending turn-ons (ch.4 4.1). An absent turn-off counts as more
than 255 ticks past. -/
structure PhaseGate where
  top : Bool
  bottom : Bool
  topOff : Option TurnOff
  bottomOff : Option TurnOff
  topPend : Option Time
  bottomPend : Option Time
  /-- Boundaries of the current plan's top interval already met on this phase: none, its beginning, both. -/
  edges : Nat
deriving DecidableEq, Repr, Inhabited

/-! ### Current rebuilder (ch.7) -/

/-- A rebuilt phase current with its validity. -/
structure Current where
  value : Int
  valid : Bool
deriving DecidableEq, Repr, Inhabited

/-- Outcome of a request place of the working record (R125). -/
inductive Place where
  | notPlaced
  | waiting
  /-- A shunt result: raw code, start instant, lateness. -/
  | converted (raw : Nat) (start : Time) (lateness : Nat)
  /-- A SENSE result: its raw code is not kept (R125), its lateness is reported (R134). -/
  | sensed (lateness : Nat)
  | late
deriving DecidableEq, Repr, Inhabited

/-- The working record of a period (R125). The plan of the period stands for the sort order, flags and values it carries. -/
structure WorkRecord where
  plan : Plan
  /-- Device time of the period start. -/
  start : Time
  /-- SHUNT_A place, and SHUNT_B or SENSE place. -/
  placeA : Place
  placeB : Place
  /-- For a step plan's SHUNT_A: the step index it was sampled under, and the validity of the floating phase (R129). -/
  sampled : Option (Nat × Bool)
deriving DecidableEq, Repr, Inhabited

/-- The current rebuilder of a channel (R124). -/
structure Rebuilder where
  cur : PerPhase Current
  curSeq : Option Seq
  work : Option WorkRecord
  /-- Over-limit count, 0..15. -/
  overCount : Nat
  /-- Report count, 0..254. -/
  report : Nat
deriving DecidableEq, Repr, Inhabited

/-! ### Motor channel (ch.2) -/

/-- The trip record (R140): bit `cause code − 1` of `further` says that the cause is in the set of further causes. -/
structure TripRecord where
  first : TripCause
  seq : Seq
  further : BitVec 8
deriving DecidableEq, Repr, Inhabited

/-- A half-period point to come (R7): its instant, and whether it is the one at period time H. -/
structure HalfPoint where
  time : Time
  peak : Bool
deriving DecidableEq, Repr, Inhabited

/-- A motor channel (ch.2 2.1) with its modulator, sequencer, gates and rebuilder. -/
structure Channel where
  state : ChanState
  staged : ConfigRecord
  active : ConfigRecord
  live : Option LiveValues
  slot : Option Setpoint
  superseded : Nat
  /-- Zero offset Z. -/
  z : Nat
  /-- Period sequence (R6). -/
  seq : Seq
  /-- Device time of the latest period start since the carrier restart (R6). -/
  latest : Option Time
  /-- Next period start: instant and sequence (R6, R8). -/
  nextStart : Option (Time × Seq)
  /-- Next half-period point (R7). -/
  nextHalf : Option HalfPoint
  nextPlan : Option Plan
  curPlan : Option Plan
  calSum : Nat
  calResults : Nat
  calPeriods : Nat
  requested : BitVec 32
  converted : BitVec 32
  late : BitVec 32
  flushed : BitVec 32
  trip : Option TripRecord
  /-- Safe state in force (R137). -/
  safe : Option SafeState
  vm : VectorMod
  sq : StepSeq
  gates : PerPhase PhaseGate
  rb : Rebuilder
deriving DecidableEq, Repr, Inhabited

/-! ### Conversion scheduler (ch.6) -/

/-- Owner of a timeline entry (R104). -/
inductive Owner where
  | chan (c : Chan)
  | aux (index : Nat)
deriving DecidableEq, Repr, Inhabited

/-- A timeline entry (R104). An absent tolerance is unlimited; an absent merged count belongs to a channel entry. -/
structure Entry where
  slot : Nat
  owner : Owner
  purpose : Purpose
  due : Time
  tol : Option Nat
  level : Nat
  seq : Seq
  merged : Option Nat
deriving DecidableEq, Repr, Inhabited

/-- The conversion in progress (R109): the entry it was started for, its start instant, its input and the ticks left of 72. -/
structure Conversion where
  entry : Entry
  start : Time
  input : Nat
  left : Nat
  /-- A commutation of the owning channel has been applied since the start (the model's own, for R129). -/
  commutated : Bool
deriving DecidableEq, Repr, Inhabited

/-- An aux plan entry with its wait count (R116). -/
structure AuxEntry where
  source : AuxSource
  instant : Nat
  divider : Nat
  wait : Nat
deriving DecidableEq, Repr, Inhabited

/-- The conversion scheduler and the converter (R99). -/
structure Scheduler where
  conv : Option Conversion
  timeline : List Entry
  shuntLevel : Nat
  senseLevel : Nat
  auxLevel : Nat
  aux : List AuxEntry
deriving DecidableEq, Repr, Inhabited

/-! ### Protection monitor (ch.8) -/

/-- A latest aux result (R144). -/
structure AuxResult where
  raw : Nat
  merged : Nat
  age : Nat
deriving DecidableEq, Repr, Inhabited

/-- The protection monitor (R136). -/
structure Protection where
  /-- Fault input pin of each channel as the board drives it: asserted. -/
  pins : PerChan Bool
  /-- Kept fault input level of each channel: asserted (R141). -/
  levels : PerChan Bool
  bus : Option AuxResult
  temp : Option AuxResult
  spare1 : Option AuxResult
  spare2 : Option AuxResult
  busCond : BusCond
  tempCond : TempCond
  /-- Bus staleness count, 0..64 (R147). -/
  staleCount : Nat
  /-- A BUS_STALE record has been given for the present count of 64 (the model's own, for R147). -/
  staleGiven : Bool
  busOver : Nat
  busUnder : Nat
  tempWarn : Nat
  tempTrip : Nat
deriving DecidableEq, Repr, Inhabited

/-! ### Host supervision (ch.9) -/

/-- Host supervision (R151). LOCKED stands in the device state. -/
structure Supervision where
  enabled : Bool
  tc : Nat
  te : Nat
  count : Nat
  stage : Nat
  /-- Expected count; absent is ANY. -/
  expected : Option Nat
  /-- Pending heartbeat. -/
  heartbeat : Option Nat
  running : Bool
deriving DecidableEq, Repr, Inhabited

/-! ### Link (ch.10) -/

/-- An event record (R172). Without a channel it is a device record. -/
structure EventRecord where
  code : EventCode
  chan : Option Chan
  seq : Seq
  repeats : Nat
  detail : Nat
deriving DecidableEq, Repr, Inhabited

/-- What happens when the last bit of a reply has left (R10, R14, R162). -/
inductive ReplyEffect where
  | nothing
  | messageReset
  | quietEntry
  | setLink (rate : Rate) (gap : Nat)
deriving DecidableEq, Repr, Inhabited

/-- A frame of the outbound queue (R170): a reply, an EVENT frame, or a REPORT frame of a channel. The tag of the last two is
taken when the frame begins (R164). -/
inductive OutFrame where
  | reply (tag : Byte) (payload : List Byte) (effect : ReplyEffect)
  | event (r : EventRecord)
  | report (c : Chan) (payload : List Byte)
deriving DecidableEq, Repr, Inhabited

/-- The transmitter (R164): `sending` holds the characters of the frame, what its end brings, and the ticks until the stop bit
of its last character ends; `gap` the ticks left of the gap. -/
inductive Transmitter where
  | idle
  | sending (chars : List Byte) (effect : ReplyEffect) (left : Nat)
  | gap (left : Nat)
deriving DecidableEq, Repr, Inhabited

/-- The link (ch.10). -/
structure Link where
  rate : Rate
  /-- Gap in bit times, 0..15. -/
  gap : Nat
  /-- Kept characters of the frame being collected, its start marker first; empty while HUNTING. -/
  rx : List Byte
  /-- Ticks left of the timeout of the frame being collected (R166). -/
  rxLeft : Nat
  /-- Receive buffer, oldest first. -/
  rxBuf : List Frame
  tx : Transmitter
  /-- Outbound queue, oldest first. -/
  out : List OutFrame
  /-- Event queue, oldest first. -/
  events : List EventRecord
  /-- How many of the newest event records were queued at the present instant (the model's own, for R172). -/
  batch : Nat
  /-- A frame begun at the present instant lets one record move, which waits for the claims that go first (the model's own, for
  R170, R173). -/
  moveOwed : Bool
  discarded : Nat
  replaced : PerChan Nat
  skipped : PerChan Nat
  /-- Autonomous sequence (R164). -/
  autoSeq : Byte
deriving DecidableEq, Repr, Inhabited

/-! ### The whole -/

/-- The state of the KD630: the queue of waiting commands, the blocks, the ATTN output and the counter that free values are
drawn with. -/
structure State where
  /-- The commands that are waiting, first in, first out. -/
  pending : List Instr
  power : Power
  tb : Timebase
  ch : PerChan Channel
  sched : Scheduler
  prot : Protection
  sup : Supervision
  link : Link
  /-- The ATTN output (R149). -/
  attn : Bool
  /-- Index of the next free value (the model's own). -/
  fresh : Nat
deriving DecidableEq, Repr, Inhabited

/-- No command of the block stops it with a fault: what the spec calls a fault or a trip is an effect on the state. Nothing
raises this, which is safe. -/
inductive Fault where
deriving DecidableEq, Repr

/-- Why a command has no meaning. -/
inductive Refusal where
  /-- Raised by an arm of `exec` whose command has no meaning yet; no arm does. Safe: a refused command proves nothing. -/
  | notModelled (mnemonic : String)
deriving DecidableEq, Repr

/-! ### Reset values -/

/-- Ticks of start-up, 2 ms at 80 MHz (R13). -/
def startUpTicks : Nat := 160000

/-- The timebase right after a reset of any kind (ch.1). R15 records the reset cause at the end of start-up alone: until then the field is
held as POWER, whatever the kind of the reset (DESIGN CHOICE, log 47). -/
def Timebase.reset : Timebase where
  now := 0
  h := 2500
  d := 64
  count := 0
  up := true
  masterSeq := 0
  masterStart := 0
  masterTaken := 0
  masterNext := 0
  masterNextSeq := 0
  dev := .active
  cause := .power
  quietPending := false
  quietDropped := false
  resetPending := false
  wakeLeft := none

def VectorMod.reset : VectorMod where
  amp := 0
  rate := 0
  acc := 0
  age := 0
  marker := false

def StepSeq.reset : StepSeq where
  index := 0
  dir := .forward
  profile := List.replicate 16 none
  first := 0
  last := 0
  seg := 0
  j := 0
  duty := 0
  advance := 0
  lastComm := none
  compare := none
  lastZc := none
  found := false
  prev := none
  blanking := 0
  t60 := 65535
  p := 1
  miss := 0
  qualified := 0

def PhaseGate.reset : PhaseGate where
  top := false
  bottom := false
  topOff := none
  bottomOff := none
  topPend := none
  bottomPend := none
  edges := 0

/-- A current that could not be formed (R128). -/
def Current.invalid : Current where
  value := 0
  valid := false

def Rebuilder.reset : Rebuilder where
  cur := ⟨.invalid, .invalid, .invalid⟩
  curSeq := none
  work := none
  overCount := 0
  report := 0

def Channel.reset : Channel where
  state := .unconfigured
  staged := .reset
  active := .reset
  live := none
  slot := none
  superseded := 0
  z := 2048
  seq := 0
  latest := none
  nextStart := none
  nextHalf := none
  nextPlan := none
  curPlan := none
  calSum := 0
  calResults := 0
  calPeriods := 0
  requested := 0
  converted := 0
  late := 0
  flushed := 0
  trip := none
  safe := none
  vm := .reset
  sq := .reset
  gates := ⟨.reset, .reset, .reset⟩
  rb := .reset

/-- Table 6-4. -/
def Scheduler.reset : Scheduler where
  conv := none
  timeline := []
  shuntLevel := 2
  senseLevel := 1
  auxLevel := 1
  aux := [⟨.bus, 0, 1, 0⟩, ⟨.temp, 2500, 64, 0⟩, ⟨.spare1, 0, 0, 0⟩, ⟨.spare2, 0, 0, 0⟩]

/-- The protection monitor right after a reset (R136). R141 takes the kept fault input levels from the inputs at the end of start-up: until
then they are held as released, also where an input is asserted (DESIGN CHOICE, log 48). -/
def Protection.reset : Protection where
  pins := ⟨false, false, false⟩
  levels := ⟨false, false, false⟩
  bus := none
  temp := none
  spare1 := none
  spare2 := none
  busCond := .normal
  tempCond := .normal
  staleCount := 0
  staleGiven := false
  busOver := 4000
  busUnder := 0
  tempWarn := 4095
  tempTrip := 4095

def Supervision.reset : Supervision where
  enabled := false
  tc := 0
  te := 10
  count := 0
  stage := 0
  expected := none
  heartbeat := none
  running := false

/-- The link right after a reset (ch.10). From then to the end of start-up, for which R164's states have no name, the transmitter is
held as IDLE (DESIGN CHOICE, log 45); `State.mayTransmit` keeps it from beginning a frame. -/
def Link.reset : Link where
  rate := .r1M
  gap := 2
  rx := []
  rxLeft := 0
  rxBuf := []
  tx := .idle
  out := []
  events := []
  batch := 0
  moveOwed := false
  discarded := 0
  replaced := ⟨0, 0, 0⟩
  skipped := ⟨0, 0, 0⟩
  autoSeq := 0

/-- The machine right after a power-on reset: supply has become valid, RESET is high and the 2 ms of start-up begin (R13). -/
def State.reset : State where
  pending := []
  power :=
    { supply := true
      pinLow := false
      phase := .startUp startUpTicks
      supplyNew := true
      nextCause := .pin }
  tb := .reset
  ch := ⟨.reset, .reset, .reset⟩
  sched := .reset
  prot := .reset
  sup := .reset
  link := .reset
  attn := false
  fresh := 0

end Sys2Proof.Machine
end

