-- ==== Sys2Proof/Config.lean ====
section
/-!
DEFINITION. The free values: what the spec leaves open and the machine goes on with. Each is an opaque constant applied to the
state's counter `fresh`, so that nothing can be proved of a value it gives.
-/

namespace Sys2Proof.Config

/-- A byte of a reply or report that belongs to an absent thing and for which ch.11 gives no value (log 8): the n-th free
value, byte k. -/
opaque freeByte : Nat → Nat → BitVec 8

/-- The raw code of a conversion that the idle step completes: the analog input (log 10). -/
opaque freeRaw : Nat → BitVec 12

/-- Which of the events due at one instant comes first, where the spec gives no order (log 4). -/
opaque freeOrder : Nat → Nat

/-- The interval from the previous zero crossing where there is none (log 9): no run reaches it. -/
opaque freeInterval : Nat → Nat

/-- The segment in force where its profile place is empty (log 25): no run reaches it. -/
opaque freeSegment : Nat → Sys2Proof.Machine.Segment

end Sys2Proof.Config
end

