-- ==== Sys2Proof/Machine/Bytes.lean ====
section
/-!
DEFINITION. Byte order of the link's fields (R176), the frame check (R167) and the codes of the enumerated fields
(Table 11-5, Table 11-6).
-/

namespace Sys2Proof.Machine

/-! ### Byte order (R176): least significant byte first -/

def byte (n : Nat) : Byte := BitVec.ofNat 8 n

/-- One byte. -/
def le1 (n : Nat) : List Byte := [byte n]

/-- Two bytes, the lower first. -/
def le2 (n : Nat) : List Byte := [byte n, byte (n / 256)]

/-- Four bytes, the lowest first. -/
def le4 (n : Nat) : List Byte := [byte n, byte (n / 256), byte (n / 65536), byte (n / 16777216)]

/-- A signed quantity in two bytes, two's complement. -/
def le2s (i : Int) : List Byte := le2 (BitVec.ofInt 16 i).toNat

/-- A signed quantity in four bytes, two's complement. -/
def le4s (i : Int) : List Byte := le4 (BitVec.ofInt 32 i).toNat

/-- An unsigned field of two bytes as received. -/
def u16 (b0 b1 : Byte) : Nat := b0.toNat + 256 * b1.toNat

/-- A signed field of four bytes as received. -/
def s32 (b0 b1 b2 b3 : Byte) : Int :=
  (BitVec.ofNat 32 (b0.toNat + 256 * b1.toNat + 65536 * b2.toNat + 16777216 * b3.toNat)).toInt

/-- Two's complement of a truth value, for "sum of" fields (R176). -/
def flag (weight : Nat) (b : Bool) : Nat := if b then weight else 0

/-! ### Frame check (R167) -/

/-- One doubling of the check value. -/
def crcStep (v : Byte) : Byte := if v.msb then (v <<< 1) ^^^ 0x1D#8 else v <<< 1

/-- The check value after one more character. -/
def crcChar (v c : Byte) : Byte := Nat.repeat crcStep 8 (v ^^^ c)

/-- The check over a list of characters, from value 0. -/
def crc (cs : List Byte) : Byte := cs.foldl crcChar 0#8

/-- The start marker (R163). -/
def marker : Byte := 0xD5#8

/-- The characters of a frame (Table 11-1). -/
def frameChars (type tag : Byte) (payload : List Byte) : List Byte :=
  let body := byte payload.length :: type :: tag :: payload
  marker :: body ++ [crc body]

/-! ### Codes (Table 11-5) -/

def chanCode : Chan → Nat
  | .m1 => 1
  | .m2 => 2
  | .m3 => 3

/-- Which channel a channel field names (R18). -/
def chanOf : Nat → Option Chan
  | 1 => some .m1
  | 2 => some .m2
  | 3 => some .m3
  | _ => none

def Kind.code : Kind → Nat
  | .vector => 0
  | .step => 1

def SafeState.code : SafeState → Nat
  | .openAll => 0
  | .short => 1

def Direction.code : Direction → Nat
  | .forward => 0
  | .reverse => 1

def AuxSource.code : AuxSource → Nat
  | .bus => 0
  | .temp => 1
  | .spare1 => 2
  | .spare2 => 3

def auxSourceOf : Nat → Option AuxSource
  | 0 => some .bus
  | 1 => some .temp
  | 2 => some .spare1
  | 3 => some .spare2
  | _ => none

def Rate.code : Rate → Nat
  | .r500k => 0
  | .r1M => 1
  | .r2M => 2
  | .r4M => 3

def rateOf : Nat → Option Rate
  | 0 => some .r500k
  | 1 => some .r1M
  | 2 => some .r2M
  | 3 => some .r4M
  | _ => none

/-- Ticks of one bit time: 80 MHz over the rate (R161). -/
def Rate.bitTicks : Rate → Nat
  | .r500k => 160
  | .r1M => 80
  | .r2M => 40
  | .r4M => 20

def ChanState.code : ChanState → Nat
  | .unconfigured => 0
  | .stopped => 1
  | .calibrating => 2
  | .vector => 3
  | .align => 4
  | .ramp => 5
  | .closed => 6
  | .braking => 7
  | .tripped => 8

def DevState.code : DevState → Nat
  | .active => 0
  | .quiet => 1
  | .locked => 2

def BusCond.code : BusCond → Nat
  | .normal => 0
  | .overLimit => 1
  | .underLimit => 2

def TempCond.code : TempCond → Nat
  | .normal => 0
  | .warm => 1
  | .hot => 2

def ResultCode.code : ResultCode → Nat
  | .ok => 0
  | .clamped => 1
  | .badLength => 2
  | .unknown => 3
  | .badValue => 4
  | .wrongState => 5
  | .conflict => 6
  | .locked => 7
  | .busy => 8
  | .noSetpoint => 9
  | .faultActive => 10

def TripCause.code : TripCause → Nat
  | .faultInput => 1
  | .currentLimit => 2
  | .busOver => 3
  | .busUnder => 4
  | .temperature => 5
  | .stale => 6
  | .lostSync => 7
  | .supervision => 8

def Cause.code : Cause → Nat
  | .power => 0
  | .pin => 1
  | .message => 2

/-- Event codes (Table 11-6). -/
def EventCode.code : EventCode → Nat
  | .resetDone => 1
  | .linkError => 2
  | .trip => 3
  | .stale => 4
  | .startFailed => 5
  | .handover => 6
  | .blindStep => 7
  | .calDone => 8
  | .calFailed => 9
  | .supervisionLate => 10
  | .supervisionSequence => 11
  | .supervisionTrip => 12
  | .busStale => 13
  | .tempWarn => 14

/-- Request outcome (Table 11-5). -/
def Place.code : Place → Nat
  | .notPlaced => 0
  | .converted _ _ _ => 1
  | .sensed _ => 1
  | .late => 2
  | .waiting => 3

/-- Lateness of a place, 0 unless CONVERTED (R180). -/
def Place.lateness : Place → Nat
  | .converted _ _ l => l
  | .sensed l => l
  | _ => 0

end Sys2Proof.Machine
end

