-- ==== Sys2Proof/Machine/Operands.lean ====
section
/-!
DEFINITION. The operand forms of the requests: from payload characters to fields (Table 11-2, R177). A reader answers none
exactly when the payload's length is not one the table gives for the type, which the link answers BAD_LENGTH.
Fields are read with the whole range of their width; their ranges are checked by their owner (R178).
-/

namespace Sys2Proof.Machine

/-- No fields. -/
def readNone : List Byte → Option Unit
  | [] => some ()
  | _ => none

/-- One field of one byte. -/
def read1 : List Byte → Option Nat
  | [a] => some a.toNat
  | _ => none

/-- Two fields of one byte. -/
def read11 : List Byte → Option (Nat × Nat)
  | [a, b] => some (a.toNat, b.toNat)
  | _ => none

/-- Two fields of two bytes (SUPERVISE, CARRIER). -/
def read22 : List Byte → Option (Nat × Nat)
  | [a0, a1, b0, b1] => some (u16 a0 a1, u16 b0 b1)
  | _ => none

/-- The fields of CONVERTER. -/
structure Levels where
  shunt : Nat
  sense : Nat
  aux : Nat
deriving DecidableEq, Repr

def readLevels : List Byte → Option Levels
  | [a, b, c] => some ⟨a.toNat, b.toNat, c.toNat⟩
  | _ => none

/-- One entry of an AUX_PLAN request. -/
structure AuxFields where
  source : Nat
  instant : Nat
  divider : Nat
deriving DecidableEq, Repr

def readAuxList : List Byte → Option (List AuxFields)
  | [] => some []
  | s :: i0 :: i1 :: d :: rest => (readAuxList rest).map (⟨s.toNat, u16 i0 i1, d.toNat⟩ :: ·)
  | _ => none

/-- AUX_PLAN: start index and 1 to 4 entries. -/
def readAuxPlan : List Byte → Option (Nat × List AuxFields)
  | [] => none
  | st :: rest =>
    match readAuxList rest with
    | some l => if 1 ≤ l.length ∧ l.length ≤ 4 then some (st.toNat, l) else none
    | none => none

/-- The fields of LIMITS. -/
structure LimitFields where
  busOver : Nat
  busUnder : Nat
  tempWarn : Nat
  tempTrip : Nat
deriving DecidableEq, Repr

def readLimits : List Byte → Option LimitFields
  | [a0, a1, b0, b1, c0, c1, d0, d1] => some ⟨u16 a0 a1, u16 b0 b1, u16 c0 c1, u16 d0 d1⟩
  | _ => none

def readPairs : List Byte → Option (List (Nat × Nat))
  | [] => some []
  | n :: v0 :: v1 :: rest => (readPairs rest).map ((n.toNat, u16 v0 v1) :: ·)
  | _ => none

/-- CHANNEL_SETUP: channel and 1 to 12 pairs of field number and value. -/
def readSetup : List Byte → Option (Nat × List (Nat × Nat))
  | [] => none
  | c :: rest =>
    match readPairs rest with
    | some l => if 1 ≤ l.length ∧ l.length ≤ 12 then some (c.toNat, l) else none
    | none => none

/-- One segment of a PROFILE request. -/
structure SegmentFields where
  kind : Nat
  duty : Nat
  t0 : Nat
  repeats : Nat
  t1 : Nat
deriving DecidableEq, Repr

def readSegments : List Byte → Option (List SegmentFields)
  | [] => some []
  | k :: d0 :: d1 :: t0 :: t1 :: n :: e0 :: e1 :: rest =>
    (readSegments rest).map (⟨k.toNat, u16 d0 d1, u16 t0 t1, n.toNat, u16 e0 e1⟩ :: ·)
  | _ => none

/-- PROFILE: channel, start index and 1 to 4 segments. -/
def readProfile : List Byte → Option (Nat × Nat × List SegmentFields)
  | c :: st :: rest =>
    match readSegments rest with
    | some l => if 1 ≤ l.length ∧ l.length ≤ 4 then some (c.toNat, st.toNat, l) else none
    | none => none
  | _ => none

/-- The step fields of START. -/
structure StepFields where
  dir : Nat
  first : Nat
  last : Nat
  index : Nat
deriving DecidableEq, Repr

/-- START: channel, with or without the step fields. -/
def readStart : List Byte → Option (Nat × Option StepFields)
  | [c] => some (c.toNat, none)
  | [c, d, f, l, i] => some (c.toNat, some ⟨d.toNat, f.toNat, l.toNat, i.toNat⟩)
  | _ => none

/-- The fields of VECTOR_SET. -/
structure VectorFields where
  chan : Nat
  amp : Nat
  rate : Int
  theta : Option Nat
deriving DecidableEq, Repr

def readVectorSet : List Byte → Option VectorFields
  | [c, a0, a1, w0, w1, w2, w3] => some ⟨c.toNat, u16 a0 a1, s32 w0 w1 w2 w3, none⟩
  | [c, a0, a1, w0, w1, w2, w3, t0, t1] => some ⟨c.toNat, u16 a0 a1, s32 w0 w1 w2 w3, some (u16 t0 t1)⟩
  | _ => none

/-- The fields of STEP_SET. -/
structure StepSetFields where
  chan : Nat
  duty : Nat
  advance : Option Nat
deriving DecidableEq, Repr

def readStepSet : List Byte → Option StepSetFields
  | [c, d0, d1] => some ⟨c.toNat, u16 d0 d1, none⟩
  | [c, d0, d1, a] => some ⟨c.toNat, u16 d0 d1, some a.toNat⟩
  | _ => none

/-! ### Configuration fields (Table 2-1, R19) -/

/-- Whether a value lies in the range that CHANNEL_SETUP checks for a field number (R19). -/
def fieldInRange (n v : Nat) : Bool :=
  match n with
  | 1 => v ≤ 1
  | 2 => v ≤ 19999
  | 3 => v ≤ 1
  | 4 => v ≤ 1023
  | 5 => 20 ≤ v && v ≤ 255
  | 6 => v ≤ 1
  | 7 => 1 ≤ v && v ≤ 4095
  | 8 => 1 ≤ v && v ≤ 15
  | 9 => v ≤ 255
  | 10 => 1 ≤ v && v ≤ 4095
  | 11 => 2 ≤ v && v ≤ 4095
  | 12 => v ≤ 31
  | 13 => v ≤ 15
  | 14 => 1 ≤ v && v ≤ 7
  | 15 => 2 ≤ v && v ≤ 15
  | 16 => v ≤ 1023
  | 17 => v ≤ 65535
  | _ => false

/-- Writes a configuration field by its number; a number that names no field writes nothing. -/
def ConfigRecord.setField (r : ConfigRecord) (n v : Nat) : ConfigRecord :=
  match n with
  | 1 => { r with kind := if v = 0 then .vector else .step }
  | 2 => { r with offset := v }
  | 3 => { r with stretch := v != 0 }
  | 4 => { r with window := v }
  | 5 => { r with lead := v }
  | 6 => { r with safe := if v = 0 then .openAll else .short }
  | 7 => { r with curLimit := v }
  | 8 => { r with limitPeriods := v }
  | 9 => { r with report := v }
  | 10 => { r with s1 := v }
  | 11 => { r with s2 := v }
  | 12 => { r with advance := v }
  | 13 => { r with blanking := v }
  | 14 => { r with missLimit := v }
  | 15 => { r with q := v }
  | 16 => { r with senseTol := v }
  | 17 => { r with ceiling := v }
  | _ => r

/-- The live fields of a record (R22). -/
def ConfigRecord.liveValues (r : ConfigRecord) : LiveValues where
  curLimit := r.curLimit
  limitPeriods := r.limitPeriods
  report := r.report
  s1 := r.s1
  s2 := r.s2
  advance := r.advance
  ceiling := r.ceiling

/-- A record with its live fields replaced (R22). -/
def ConfigRecord.withLive (r : ConfigRecord) (l : LiveValues) : ConfigRecord :=
  { r with
    curLimit := l.curLimit
    limitPeriods := l.limitPeriods
    report := l.report
    s1 := l.s1
    s2 := l.s2
    advance := l.advance
    ceiling := l.ceiling }

/-- Two records agree on every non-live field, 1 to 6 and 13 to 16 (R20): they differ in live fields alone. -/
def ConfigRecord.sameNonLive (a b : ConfigRecord) : Bool := a.withLive b.liveValues == b

end Sys2Proof.Machine
end

