-- ==== Sys2Proof/Machine/Modulation.lean ====
section
/-!
DEFINITION. From setpoint to plan: the vector chain (ch.3 R45 to R54), the edge placer's sort, stretch, windows and sample
requests (ch.4 R59 to R62, R71 to R73), the step table (ch.5 R76) and the profile's timing (R81). Everything here is a function of
numbers; nothing reads or writes the state.
-/

namespace Sys2Proof.Machine

/-! ### Angle (R45, R46) -/

/-- One electrical revolution in 65536ths of an au: 3072 × 65536. -/
def revolution : Nat := 201326592

/-- The accumulator advanced by a signed rate (R45). -/
def advanceAngle (acc : Nat) (rate : Int) : Nat := (((acc : Int) + rate) % (revolution : Int)).toNat

/-- Largest amplitude (R42). -/
def maxAmp : Nat := 37837

/-- Largest rate, either sign (R42). -/
def maxRate : Int := 33554432

def clampRate (w : Int) : Int := max (-maxRate) (min maxRate w)

/-- Angle of a phase for phase U at nU (R46). -/
def phaseAngle (nU : Nat) : Phase → Nat
  | .u => nU
  | .v => (nU + 3072 - 1024) % 3072
  | .w => (nU + 1024) % 3072

/-! ### Duties (R48 to R50) -/

/-- Phase voltage (R48). -/
def phaseVoltage (amp : Nat) (n : Nat) : Int := ((amp : Int) * sine n) / 32768

/-- Zero-sequence offset (R49). -/
def zeroSequence (vu vv vw : Int) : Int := -((max vu (max vv vw) + min vu (min vv vw)) / 2)

/-- A duty limited to 0..65536 (R50). -/
def limitDuty (d : Int) : Nat := (max 0 (min 65536 d)).toNat

/-- The three duties of an angle and an amplitude (R46 to R50). -/
def vectorDuties (nU amp : Nat) : PerPhase Nat :=
  let vu := phaseVoltage amp (phaseAngle nU .u)
  let vv := phaseVoltage amp (phaseAngle nU .v)
  let vw := phaseVoltage amp (phaseAngle nU .w)
  let z := zeroSequence vu vv vw
  ⟨limitDuty (32768 + vu + z), limitDuty (32768 + vv + z), limitDuty (32768 + vw + z)⟩

/-! ### Compare values and dither (R51, R52) -/

/-- The order of the four binary digits reversed (R52). -/
def bitrev4 (i : Nat) : Nat := 8 * (i % 2) + 4 * (i / 2 % 2) + 2 * (i / 4 % 2) + i / 8 % 2

/-- Compare value of a duty in sixteenths of a tick (R51). -/
def compare16 (h duty : Nat) : Nat := h * (65536 - duty) / 4096

/-- Integer part, sixteenths and dithered compare value of a duty (R51, R52). -/
def phaseCompare (h duty dither : Nat) : PhaseCompare :=
  let c16 := compare16 h duty
  { int := c16 / 16
    six := c16 % 16
    c := c16 / 16 + if bitrev4 dither < c16 % 16 then 1 else 0 }

/-! ### Sort, stretch and windows (R59 to R62) -/

/-- The phases in ascending order of compare value, equal values in the order U, V, W (R59). -/
def sortPhases (cu cv cw : Nat) : Phase × Phase × Phase :=
  if cu ≤ cv then
    if cv ≤ cw then (.u, .v, .w) else if cu ≤ cw then (.u, .w, .v) else (.w, .u, .v)
  else
    if cu ≤ cw then (.v, .u, .w) else if cv ≤ cw then (.v, .w, .u) else (.w, .v, .u)

/-- Up-compare of the first phase with stretch on (R61). A difference below 0 stands at 0, which the bound of R61 makes the
same. -/
def stretchFirst (h w cf cm : Nat) : Nat := max (min cf (cm - w)) (2 * cf - h)

/-- Up-compare of the last phase with stretch on (R61). -/
def stretchLast (h w cl cm : Nat) : Nat := min (max cl (cm + w)) (min h (2 * cl))

/-- The vector part of a plan (R54, R59 to R62) from angle, amplitude and dither index. -/
def vectorPlan (cfg : ConfigRecord) (h acc amp dither : Nat) : VectorPlan :=
  let duty := vectorDuties (acc / 65536) amp
  let cmp : PerPhase PhaseCompare :=
    ⟨phaseCompare h duty.u dither, phaseCompare h duty.v dither, phaseCompare h duty.w dither⟩
  let order := sortPhases cmp.u.c cmp.v.c cmp.w.c
  let f := order.1
  let m := order.2.1
  let l := order.2.2
  let cf := (cmp.get f).c
  let cm := (cmp.get m).c
  let cl := (cmp.get l).c
  let upF := if cfg.stretch then stretchFirst h cfg.window cf cm else cf
  let upL := if cfg.stretch then stretchLast h cfg.window cl cm else cl
  let up := (((⟨0, 0, 0⟩ : PerPhase Nat).set f upF).set m cm).set l upL
  let dn := (((⟨0, 0, 0⟩ : PerPhase Nat).set f (2 * cf - upF)).set m cm).set l (2 * cl - upL)
  let winA := cm - upF
  let winB := upL - cm
  { angleInt := acc / 65536
    angleFrac := acc % 65536
    amp := amp
    duty := duty
    dither := dither
    cmp := cmp
    first := f
    middle := m
    last := l
    up := up
    dn := dn
    winA := winA
    winB := winB
    stretchedFirst := upF < cf
    stretchedLast := cl < upL
    shortA := winA < cfg.window || cm < cfg.lead
    shortB := winB < cfg.window || upL < cfg.lead }

/-- The sample requests of a vector plan (R71). -/
def vectorRequests (cfg : ConfigRecord) (p : VectorPlan) : List PlanRequest :=
  (if p.shortA then [] else [⟨.shuntA, (p.cmp.get p.middle).c - cfg.lead, cfg.lead - 20⟩]) ++
  (if p.shortB then [] else [⟨.shuntB, p.up.get p.last - cfg.lead, cfg.lead - 20⟩])

/-- The plan of a vector channel for a period (R43 step 5). Its dither index is the period sequence modulo 16 (R52). -/
def makeVectorPlan (cfg : ConfigRecord) (h : Nat) (vm : VectorMod) (seq : Seq) : Plan :=
  let p := vectorPlan cfg h vm.acc vm.amp (seq.toNat % 16)
  { seq := seq, body := .vector p, requests := vectorRequests cfg p }

/-! ### Step plans (R53, R67, R72) and the calibration plan (R73) -/

/-- The plan of a step channel for a period (R79 step 4, R72). `sensing` says that the channel is in RAMP or CLOSED. In ALIGN, which
places no SENSE, the sense short flag stays clear whatever H − C − 30 is (DEDUCED, log 38). -/
def makeStepPlan (cfg : ConfigRecord) (h d index duty : Nat) (sensing : Bool) (seq : Seq) : Plan :=
  let limited := min duty cfg.ceiling
  let dither := seq.toNat % 16
  let cmp := phaseCompare h limited dither
  let shortA := decide (h < cmp.c + d + 82)
  let senseShort := sensing && decide (h < cmp.c + 30)
  { seq := seq
    body := .step
      { index := index, duty := limited, dither := dither, cmp := cmp, shortA := shortA, senseShort := senseShort }
    requests :=
      (if shortA then []
       else [⟨.shuntA, h - 82, min (cfg.lead - 20) (min 80 (h - 82 - (cmp.c + d)))⟩]) ++
      (if sensing && !senseShort then [⟨.sense, h - 10, min cfg.senseTol (h - cmp.c - 30)⟩] else []) }

/-- The plan of a calibrating channel for a period (R37, R73). -/
def makeCalPlan (cfg : ConfigRecord) (h : Nat) (seq : Seq) : Plan where
  seq := seq
  body := .cal
  requests := [⟨.cal, h, cfg.lead - 20⟩]

/-! ### The step table (R76) -/

/-- Phase pulsed from the top. -/
def highPhase : Nat → Phase
  | 0 => .u
  | 1 => .u
  | 2 => .v
  | 3 => .v
  | _ => .w

/-- Phase held through its bottom. -/
def lowPhase : Nat → Phase
  | 0 => .v
  | 1 => .w
  | 2 => .w
  | 3 => .u
  | 4 => .u
  | _ => .v

/-- Phase left floating. -/
def floatPhase : Nat → Phase
  | 0 => .w
  | 1 => .v
  | 2 => .u
  | 3 => .w
  | 4 => .v
  | _ => .u

/-- The next step index in a direction (R76). -/
def nextIndex (dir : Direction) (i : Nat) : Nat :=
  match dir with
  | .forward => (i + 1) % 6
  | .reverse => (i + 5) % 6

/-- The step index one place back against a direction (R129). -/
def prevIndex (dir : Direction) (i : Nat) : Nat :=
  match dir with
  | .forward => (i + 5) % 6
  | .reverse => (i + 1) % 6

/-- The crossing of a step is a rising one (R76): odd steps forward, even steps in reverse. -/
def risingCrossing (dir : Direction) (i : Nat) : Bool :=
  match dir with
  | .forward => i % 2 = 1
  | .reverse => i % 2 = 0

/-! ### Segment timing (R81), in ticks: one unit of 10 µs is 800 -/

/-- Length of an ALIGN hold. -/
def Segment.hold (g : Segment) : Nat := g.repeats * g.t0 * 800

/-- Length of forced step j of a RAMP segment. The division floors toward minus infinity. -/
def Segment.stepTicks (g : Segment) (j : Nat) : Nat :=
  match g.t1 with
  | none => g.t0 * 800
  | some t1 =>
    if g.repeats ≤ 1 then g.t0 * 800
    else (((g.t0 : Int) + ((t1 : Int) - (g.t0 : Int)) * (j : Int) / ((g.repeats : Int) - 1)) * 800).toNat

/-! ### Closed-loop timing (R93 to R95) -/

/-- The prescalers, smallest first (R93). -/
def prescalers : List Nat := [1, 2, 4, 8, 16, 32, 64, 128]

/-- P and T60 at the handover: the smallest prescaler that fits, none when no one does (R93). -/
def handoverScale (interval : Nat) : Option (Nat × Nat) :=
  (prescalers.find? (fun p => interval / p ≤ 49151)).map (fun p => (p, interval / p))

/-- P and T60 after a crossing in CLOSED (R94), for the interval from the last zero crossing. -/
def measure (p t60 interval : Nat) : Nat × Nat :=
  let n := interval / p
  if 65535 < n then (p, t60)
  else if 49151 < n then
    if p < 128 then (2 * p, max 1 (n / 2)) else (128, n)
  else if 16384 ≤ n then (p, n)
  else if 1 < p then (p / 2, max 1 (2 * n))
  else (1, max 1 n)

/-- Delay from a crossing to its commutation (R95). -/
def commutationDelay (t60 p advance : Nat) : Nat := t60 * p * (32 - advance) / 64

end Sys2Proof.Machine
end

