-- ==== Sys2Proof/Machine/Gates.lean ====
section
/-!
DEFINITION. The gate outputs of a channel (ch.4 4.4 to 4.6): turning off, pending turn-ons with dead time, the boundaries of a
plan's top intervals with their absorption, commutations, and the entries into all-off and bottoms-on. Each is a function of the
channel's six gates; the instant `now` and the dead time D in force are passed in. A turn-off keeps the D it fell under.
-/

namespace Sys2Proof.Machine

/-! ### Instants (R1): differences are taken modulo 2^32 and read as signed -/

/-- a is at b or after it. -/
def notBefore (a b : Time) : Bool := 0 ≤ (a - b).toInt

/-- a is after b. -/
def later (a b : Time) : Bool := 0 < (a - b).toInt

/-- The instant n ticks after a. -/
def addTicks (a : Time) (n : Nat) : Time := a + BitVec.ofNat 32 n

/-- Ticks from b to a later instant a. -/
def ticksSince (a b : Time) : Nat := (a - b).toNat

/-! ### One phase -/

/-- The top turns off, if on, and its pending turn-on is cancelled. -/
def PhaseGate.topDown (g : PhaseGate) (now : Time) (d : Nat) : PhaseGate :=
  { g with top := false, topOff := if g.top then some ⟨now, d⟩ else g.topOff, topPend := none }

/-- The bottom turns off, if on, and its pending turn-on is cancelled. -/
def PhaseGate.bottomDown (g : PhaseGate) (now : Time) (d : Nat) : PhaseGate :=
  { g with bottom := false, bottomOff := if g.bottom then some ⟨now, d⟩ else g.bottomOff, bottomPend := none }

/-- Both switches off, no turn-on pending. -/
def PhaseGate.down (g : PhaseGate) (now : Time) (d : Nat) : PhaseGate := (g.topDown now d).bottomDown now d

/-- The bottom gets a pending turn-on unless it is on (R65). -/
def PhaseGate.bottomAt (g : PhaseGate) (t : Time) : PhaseGate :=
  if g.bottom then g else { g with bottomPend := some t }

/-- The top gets a pending turn-on unless it is on (R65). -/
def PhaseGate.topAt (g : PhaseGate) (t : Time) : PhaseGate :=
  if g.top then g else { g with topPend := some t }

/-- A turn-off more than 255 ticks past counts as absent (R58, log 20). -/
def forgetOff (now : Time) (t : Option TurnOff) : Option TurnOff :=
  match t with
  | none => none
  | some u => if 255 < ticksSince now u.time then none else some u

def PhaseGate.age (g : PhaseGate) (now : Time) : PhaseGate :=
  { g with topOff := forgetOff now g.topOff, bottomOff := forgetOff now g.bottomOff }

/-- D ticks have passed since a turn-off, with the D in force at the turn-off (R3, R65). -/
def deadTimeOver (now : Time) (off : Option TurnOff) : Bool :=
  match off with
  | none => true
  | some u => u.d ≤ ticksSince now u.time

/-- The instant at which the dead time of a turn-off is over. -/
def TurnOff.over (u : TurnOff) : Time := addTicks u.time u.d

/-- A pending turn-on at its instant (R65): the switch turns on if the complementary switch is off and has been off for D
ticks. One whose dead time is not over waits for it; one whose complementary switch is on is dropped (log 31). -/
def PhaseGate.turnOn (g : PhaseGate) (side : Side) (now : Time) : PhaseGate :=
  match side with
  | .top =>
    if g.bottom then { g with topPend := none }
    else if deadTimeOver now g.bottomOff then { g with top := true, topPend := none }
    else { g with topPend := g.bottomOff.map TurnOff.over }
  | .bottom =>
    if g.top then { g with bottomPend := none }
    else if deadTimeOver now g.topOff then { g with bottom := true, bottomPend := none }
    else { g with bottomPend := g.topOff.map TurnOff.over }

/-- The pending turn-on of a switch. -/
def PhaseGate.pend (g : PhaseGate) : Side → Option Time
  | .top => g.topPend
  | .bottom => g.bottomPend

/-! ### All three phases -/

abbrev Gates := PerPhase PhaseGate

def PerPhase.map {α β : Type} (f : α → β) (p : PerPhase α) : PerPhase β := ⟨f p.u, f p.v, f p.w⟩

/-- Every switch that is on turns off and every pending turn-on is cancelled (R66, R138 OPEN, R142). -/
def Gates.allOff (g : Gates) (now : Time) (d : Nat) : Gates := g.map (·.down now d)

/-- The last of some turn-offs. -/
def lastOff (now : Time) : List TurnOff → Option TurnOff
  | [] => none
  | u :: us =>
    match lastOff now us with
    | none => some u
    | some v => if ticksSince now v.time < ticksSince now u.time then some v else some u

/-- The later of now and D ticks after the last turn-off of any top, with the D in force at that turn-off (R70, R139). -/
def Gates.bottomsInstant (g : Gates) (now : Time) : Time :=
  match lastOff now (g.u.topOff.toList ++ g.v.topOff.toList ++ g.w.topOff.toList) with
  | none => now
  | some u => addTicks now (u.d - ticksSince now u.time)

/-- The entry into bottoms-on: braking (R70) and SHORT (R139). The tops turn off, pending turn-ons are cancelled, each bottom
that is on stays on and each that is off waits for the dead time of the last top. -/
def Gates.bottomsOn (g : Gates) (now : Time) (d : Nat) : Gates :=
  let off : Gates := g.map (fun x => { x.topDown now d with bottomPend := none })
  off.map (·.bottomAt (off.bottomsInstant now))

/-! ### Plan intervals (R63, R64, R67) -/

/-- The top interval of a phase in a plan: up-compare, down-compare and dithered compare value; none where the plan drives no
pulse on the phase. -/
def Plan.topInterval (p : Plan) (x : Phase) : Option (Nat × Nat × Nat) :=
  match p.body with
  | .vector v => some (v.up.get x, v.dn.get x, (v.cmp.get x).c)
  | .step s => if x = highPhase s.index then some (s.cmp.c, s.cmp.c, s.cmp.c) else none
  | .cal => none

/-- A top interval of D ticks or less is absorbed (R64): its length is 2H − 2C. -/
def topAbsorbed (h d c : Nat) : Bool := 2 * h - 2 * c ≤ d

/-- The interval from the end of a top interval to the next one that is not absorbed has D ticks or less (R64, R67): the next
plan gives its end, or shows that it reaches further. The next step plan takes the roles in force when it becomes current (R68),
so the phase that is high now is taken to be its high phase (log 37). -/
def gapAbsorbed (h d dn : Nat) (next : Option Plan) (x : Phase) : Bool :=
  match next with
  | none => false
  | some n =>
    match n.body with
    | .vector v => !topAbsorbed h d (v.cmp.get x).c && dn + v.up.get x ≤ d
    | .step s => !topAbsorbed h d s.cmp.c && dn + s.cmp.c ≤ d
    | .cal => false

/-- The plan pulses both switches of the phase: a vector plan. The bottom of a step plan's high phase stays off (R67). -/
def Plan.drivesBottom (p : Plan) : Bool :=
  match p.body with
  | .vector _ => true
  | _ => false

/-- Instant within the period of the next boundary of a phase: the beginning of its top interval at the up-compare, then its end
at 2H less the down-compare (R63). -/
def Plan.nextEdge (p : Plan) (h : Nat) (x : Phase) (edges : Nat) : Option Nat :=
  match p.topInterval x with
  | none => none
  | some (up, dn, _) => if edges = 0 then some up else if edges = 1 then some (2 * h - dn) else none

/-- A phase meets its next boundary (R64, R67). -/
def PhaseGate.meetEdge (g : PhaseGate) (p : Plan) (next : Option Plan) (x : Phase) (h d : Nat) (now : Time) : PhaseGate :=
  match p.topInterval x with
  | none => g
  | some (_, dn, c) =>
    if g.edges = 0 then
      if topAbsorbed h d c || g.top then { g with edges := 1 }
      else { (g.bottomDown now d).topAt (addTicks now d) with edges := 1 }
    else if g.edges = 1 then
      if topAbsorbed h d c || gapAbsorbed h d dn next x then { g with edges := 2 }
      else
        let off := g.topDown now d
        { (if p.drivesBottom then off.bottomAt (addTicks now d) else off) with edges := 2 }
    else g

/-- The boundaries of the plan that is being replaced which have not been met, such as one at 2H, are met (R63, log 17), and the
new plan's are all to come. -/
def PhaseGate.closeEdges (g : PhaseGate) (p : Plan) (next : Option Plan) (x : Phase) (h d : Nat) (now : Time) : PhaseGate :=
  { ((g.meetEdge p next x h d now).meetEdge p next x h d now) with edges := 0 }

/-- A phase when a plan becomes current with the gates all off because no plan was current: its first bottom interval begins
(R63), unless it is D ticks or less; a step plan's low bottom turns on (R67). -/
def PhaseGate.firstPlan (g : PhaseGate) (p : Plan) (x : Phase) (h d : Nat) (now : Time) : PhaseGate :=
  let fresh := { g with edges := 0 }
  match p.body with
  | .vector v =>
    if !topAbsorbed h d (v.cmp.get x).c && v.up.get x ≤ d then fresh else fresh.bottomAt (addTicks now d)
  | .step s => if x = lowPhase s.index then fresh.bottomAt (addTicks now d) else fresh
  | .cal => fresh

/-- A phase when a plan follows another: the old plan's boundaries end, and a step plan's low bottom is on or turns on (R67). -/
def PhaseGate.followPlan (g : PhaseGate) (old new : Plan) (x : Phase) (h d : Nat) (now : Time) : PhaseGate :=
  let g' := g.closeEdges old (some new) x h d now
  match new.body with
  | .step s => if x = lowPhase s.index && g'.bottomPend.isNone then g'.bottomAt (addTicks now d) else g'
  | _ => g'

def Gates.mapPhase (g : Gates) (f : Phase → PhaseGate → PhaseGate) : Gates := ⟨f .u g.u, f .v g.v, f .w g.w⟩

/-- The gates when a plan becomes current (R63, R66, R67). -/
def Gates.becomeCurrent (g : Gates) (old : Option Plan) (new : Plan) (h d : Nat) (now : Time) : Gates :=
  match old with
  | none => g.mapPhase (fun x y => y.firstPlan new x h d now)
  | some o => g.mapPhase (fun x y => y.followPlan o new x h d now)

/-! ### Commutation (R69) -/

/-- Role of a phase at a step index. -/
inductive Role where
  | high | low | float
deriving DecidableEq, Repr

def roleOf (i : Nat) (x : Phase) : Role :=
  if x = highPhase i then .high else if x = lowPhase i then .low else .float

/-- How a newly high phase meets its plan interval at a commutation (R69): `rest` is where the commutation falls. -/
inductive CommPoint where
  /-- At period time 0, the new period's plan current: the whole interval is to come. -/
  | atStart
  /-- At period time 0, the new period's plan not yet current: the old plan's interval is over. -/
  | beforeStart
  /-- At period time H: the remainder is H..2H − C. -/
  | atPeak
deriving DecidableEq, Repr

/-- A phase at a commutation (R69). -/
def PhaseGate.commutate (g : PhaseGate) (old new : Role) (at' : CommPoint) (h d c : Nat) (now : Time) : PhaseGate :=
  match old, new with
  | .high, .high => g
  | .low, .low => g
  | .float, .float => g
  | _, .float => g.down now d
  | _, .low => (g.topDown now d).bottomAt (addTicks now d)
  | _, .high =>
    let off := g.bottomDown now d
    match at' with
    | .atStart => { off with edges := 0 }
    | .beforeStart => { off with edges := 2 }
    | .atPeak => if d < h - c then { off.topAt (addTicks now d) with edges := 1 } else { off with edges := 2 }

/-- The gates at a commutation from step index i to j (R69), with the current plan's C. -/
def Gates.commutate (g : Gates) (i j : Nat) (at' : CommPoint) (h d c : Nat) (now : Time) : Gates :=
  g.mapPhase (fun x y => y.commutate (roleOf i x) (roleOf j x) at' h d c now)

end Sys2Proof.Machine
end

