-- ==== Sys2Proof/Machine/Ops.lean ====
section
/-!
DEFINITION. The shared operations of the block: reading and writing the channels, the event queue, the transmitter, what ends an
instant, the passage of time, the replies, the timeline, the trip causes and the carrier restart.
-/

namespace Sys2Proof.Machine

/-! ### Channels -/

def State.chan (s : State) (c : Chan) : Channel := s.ch.get c

def State.modCh (s : State) (c : Chan) (f : Channel → Channel) : State :=
  { s with ch := s.ch.set c (f (s.ch.get c)) }

def PerChan.map {α β : Type} (f : α → β) (p : PerChan α) : PerChan β := ⟨f p.m1, f p.m2, f p.m3⟩

def State.modGates (s : State) (c : Chan) (f : Gates → Gates) : State :=
  s.modCh c (fun k => { k with gates := f k.gates })

def State.modLink (s : State) (f : Link → Link) : State := { s with link := f s.link }

/-- The running states VECTOR, ALIGN, RAMP, CLOSED (ch.0 Terms). -/
def ChanState.running : ChanState → Bool
  | .vector => true
  | .align => true
  | .ramp => true
  | .closed => true
  | _ => false

/-- The states in which a trip cause puts a channel into TRIPPED (R30): the running states and BRAKING. -/
def ChanState.driving (x : ChanState) : Bool := x.running || x == .braking

/-- UNCONFIGURED or STOPPED (R4, R10). -/
def ChanState.idle (x : ChanState) : Bool := x == .unconfigured || x == .stopped

def State.allIdle (s : State) : Bool := Chan.all.all (fun c => (s.chan c).state.idle)

/-! ### The passage of time -/

/-- The device has finished start-up. -/
def State.isRunning (s : State) : Bool := s.power.phase == .running

/-- The timing clock counts device time and the carrier runs: outside QUIET and start-up (R1, R2). -/
def State.clockRuns (s : State) : Bool := s.isRunning && s.tb.dev != .quiet

/-- Count and direction of the master carrier at a master period time (R2). -/
def carrierAt (h t : Nat) : Nat × Bool :=
  let u := t % (2 * h)
  if u < h then (u, true) else (2 * h - u, false)

/-- Master period time (R2). -/
def Timebase.periodTime (b : Timebase) : Nat := ticksSince b.now b.masterStart

def Timebase.elapse (b : Timebase) (clock : Bool) (n : Nat) : Timebase :=
  if clock then
    let now := addTicks b.now n
    let c := carrierAt b.h (ticksSince now b.masterStart)
    { b with now := now, count := c.1, up := c.2 }
  else { b with wakeLeft := b.wakeLeft.map (· - n) }

def Power.elapse (p : Power) (n : Nat) : Power :=
  match p.phase with
  | .startUp left => { p with phase := .startUp (left - n) }
  | _ => p

def Transmitter.elapse (t : Transmitter) (n : Nat) : Transmitter :=
  match t with
  | .idle => .idle
  | .sending cs e left => .sending cs e (left - n)
  | .gap left => .gap (left - n)

def Link.elapse (l : Link) (n : Nat) : Link :=
  { l with tx := l.tx.elapse n, rxLeft := l.rxLeft - n, batch := 0 }

def Scheduler.elapse (q : Scheduler) (n : Nat) : Scheduler :=
  { q with conv := q.conv.map (fun k => { k with left := k.left - n }) }

def Channel.age (k : Channel) (now : Time) : Channel := { k with gates := k.gates.map (·.age now) }

/-! ### Master period sequence -/

/-- The next master period start has been reached and not yet been taken. -/
def State.masterDue (s : State) : Bool := s.clockRuns && notBefore s.tb.now s.tb.masterNext

/-- The master period sequence as a block reads it: at the instant of master period start m it is m, whether or not that start
has been taken (R2). While the carrier is stopped, in QUIET and during a wake, there is no current master period: it is then the sequence
that stood at QUIET entry, and a record queued there is stamped with it (DESIGN CHOICE, log 46). -/
def State.masterSeqNow (s : State) : Seq := if s.masterDue then s.tb.masterNextSeq else s.tb.masterSeq

/-! ### Event queue (R172) and ATTN (R149) -/

/-- Order of records queued at one instant: device records by event code, then M1, M2, M3 (R172). -/
def EventRecord.key (r : EventRecord) : Nat :=
  match r.chan with
  | none => r.code.code
  | some c => 100 + chanCode c

def EventRecord.same (a b : EventRecord) : Bool := a.code == b.code && a.chan == b.chan

/-- Inserts a record after every one whose key is not greater. -/
def insertRecord (r : EventRecord) : List EventRecord → List EventRecord
  | [] => [r]
  | e :: es => if e.key ≤ r.key then e :: insertRecord r es else r :: e :: es

/-- Size of the event queue. -/
def eventRoom : Nat := 16

/-- A record is coalesced, added or discarded (R172). A new record is placed among those of the present instant by their order;
where that makes the queue too long, the last one is discarded with every occurrence that it counts. -/
def Link.queueEvent (l : Link) (r : EventRecord) : Link :=
  if l.events.any (r.same ·) then
    { l with events := l.events.map (fun e => if r.same e then { e with repeats := min 255 (e.repeats + 1) } else e) }
  else
    let n := l.events.length - l.batch
    let evs := l.events.take n ++ insertRecord r (l.events.drop n)
    if l.events.length < eventRoom then { l with events := evs, batch := l.batch + 1 }
    else
      { l with
        events := evs.take eventRoom
        discarded := min 65535 (l.discarded + ((evs.drop eventRoom).map (·.repeats)).sum) }

/-- A block queues an event record, stamped with the sequence of the current master period (R172). -/
def State.queueEvent (s : State) (code : EventCode) (chan : Option Chan) (detail : Nat) : State :=
  s.modLink (·.queueEvent { code := code, chan := chan, seq := s.masterSeqNow, repeats := 1, detail := detail })

/-- The level ATTN has (R149). -/
def State.attnLevel (s : State) : Bool :=
  s.isRunning &&
    (!s.link.events.isEmpty || Chan.all.any (fun c => (s.chan c).state == .tripped) || s.tb.dev == .locked)

/-! ### Transmitter and outbound queue (R164, R170, R173) -/

/-- Size of the outbound queue. -/
def outRoom : Nat := 24

/-- Payload of an EVENT frame (R180). -/
def EventRecord.payload (r : EventRecord) : List Byte :=
  le1 r.code.code ++ le1 (match r.chan with | none => 0 | some c => chanCode c) ++ le2 r.seq.toNat ++
    le1 r.repeats ++ le2 r.detail

/-- Ticks a frame of so many characters occupies TXD (R161). -/
def Link.frameTicks (l : Link) (chars : List Byte) : Nat := 10 * l.rate.bitTicks * chars.length

/-- The transmitter begins a frame (R164). An EVENT or REPORT frame takes as its tag the autonomous sequence as it stands before the
advance of that instant, so that the first one after a reset carries 0 (DEDUCED, log 40). -/
def Link.begin (l : Link) (f : OutFrame) : Link :=
  match f with
  | .reply tag payload effect =>
    let cs := frameChars 0x80 tag payload
    { l with tx := .sending cs effect (l.frameTicks cs) }
  | .event r =>
    let cs := frameChars 0x81 l.autoSeq r.payload
    { l with tx := .sending cs .nothing (l.frameTicks cs), autoSeq := l.autoSeq + 1 }
  | .report _ payload =>
    let cs := frameChars 0x82 l.autoSeq payload
    { l with tx := .sending cs .nothing (l.frameTicks cs), autoSeq := l.autoSeq + 1 }

/-- The oldest event record moves to the tail of the outbound queue (R173). -/
def Link.moveEvent (l : Link) : Link :=
  match l.events with
  | [] => l
  | r :: es => { l with events := es, batch := min l.batch es.length, out := l.out ++ [.event r] }

/-- The transmitter is ready (R164): it begins the oldest outbound frame, which lets one record move (R173), or it is IDLE. -/
def Link.ready (l : Link) : Link :=
  match l.out with
  | f :: rest => { ({ l with out := rest } : Link).begin f with moveOwed := !l.events.isEmpty }
  | [] => { l with tx := .idle }

/-- The one record that a frame begun at this instant lets move takes a place that remains (R170, R173). -/
def Link.moveInto (l : Link) : Link :=
  { (if l.out.length < outRoom then l.moveEvent else l) with moveOwed := false }

def OutFrame.isReport (f : OutFrame) (c : Chan) : Bool :=
  match f with
  | .report k _ => k == c
  | _ => false

/-- What an IDLE transmitter does with the frames and records of the instant (R164, R170, R173): a report goes before a record, a
record before a reply of the same instant, which its step queues before the reply is built; behind a frame one record moves. -/
def Link.beginWaiting (l : Link) : Link :=
  match l.events with
  | [] => l.ready
  | r :: es =>
    if Chan.all.any (fun c => l.out.any (·.isReport c)) then l.ready.moveInto
    else ({ l with events := es, batch := min l.batch es.length } : Link).begin (.event r)

/-- The link at the end of an instant: an IDLE transmitter begins what has appeared, and a record owed a move moves (R164, R173). -/
def Link.finish (l : Link) : Link :=
  match l.tx with
  | .idle => l.beginWaiting
  | _ => if l.moveOwed then l.moveInto else l

/-- The transmitter may begin frames: not in QUIET or a wake, and not before the end of start-up (R11, R13). -/
def State.mayTransmit (s : State) : Bool := s.clockRuns

/-- The transmitter is ready: outside QUIET it begins the oldest frame or is IDLE; in QUIET it is IDLE (R164, R11). -/
def State.ready (s : State) : State :=
  s.modLink (fun l => if s.mayTransmit then l.ready else { l with tx := .idle })

/-! ### The present instant (R169, R170, R172, log 41) -/

/-- A channel's period start falls at an instant. -/
def Channel.startsAt (k : Channel) (now : Time) : Bool := k.nextStart.map (·.1) == some now

/-- A channel's half-period point falls at an instant. -/
def Channel.halfAt (k : Channel) (now : Time) : Bool := k.nextHalf.map (·.time) == some now

/-- The close at the channel's next period start builds a report (R133), by the report interval in force after its step 1. -/
def Channel.closeReports (k : Channel) : Bool :=
  let r := match k.live with
    | some l => l.report
    | none => k.active.report
  k.state.running && k.rb.work.isSome && r != 0 && r ≤ k.rb.report + 1

/-- A channel closes a period with a report at this instant and has not done so yet. -/
def State.reportsNow (s : State) (c : Chan) : Bool :=
  s.clockRuns && (s.chan c).startsAt s.tb.now && (s.chan c).closeReports

/-- Places of the outbound queue that reports of this instant take before a request or a record (R170): one for each report that
replaces none. -/
def State.claims (s : State) : Nat :=
  Chan.all.countP (fun c => s.reportsNow c && !s.link.out.any (·.isReport c))

/-- A request can be taken (R169): the outbound queue has a place that no report of this instant claims, and the device is neither
in QUIET, a wake nor reset. -/
def State.canTake (s : State) : Bool := s.clockRuns && s.link.out.length + s.claims < outRoom

/-- At this instant an event is still to come that can hand over a report or queue a record, or a request that can be taken: a
period event, a completion, a timeout, a taking. -/
def State.moreToCome (s : State) : Bool :=
  (s.clockRuns &&
    (s.tb.masterNext == s.tb.now ||
      Chan.all.any (fun c => (s.chan c).startsAt s.tb.now || (s.chan c).halfAt s.tb.now))) ||
  (match s.sched.conv with
    | some v => v.left == 0
    | none => false) ||
  (s.isRunning && !s.link.rx.isEmpty && s.link.rxLeft == 0) || (!s.link.rxBuf.isEmpty && s.canTake)

/-- The end of a step: what has appeared at this instant is begun or moved, records only when nothing that goes before them is still
to come at the instant (R164, R170, R172, R173), and ATTN has its level (R149). -/
def State.settle (s : State) : State :=
  let t := if s.mayTransmit && (s.link.events.isEmpty || !s.moreToCome) then s.modLink Link.finish else s
  { t with attn := t.attnLevel }

/-- The link has something to begin or to move at this instant. -/
def Link.unfinished (l : Link) : Bool := (l.tx == .idle && !(l.out.isEmpty && l.events.isEmpty)) || l.moveOwed

/-- The present instant is over: what was held back at it is begun or moved. -/
def State.instantOver (s : State) : State :=
  if s.mayTransmit && s.link.unfinished then
    let t := s.modLink Link.finish
    { t with attn := t.attnLevel }
  else s

/-! ### The passage of a state's time -/

/-- n ticks of 12.5 ns pass. Device time and the carrier move outside QUIET and start-up; start-up, the wake and the link are timed by
the resonator; a conversion in progress runs on (R100). -/
def State.pass (s : State) (n : Nat) : State :=
  let clock := s.clockRuns
  { s with
    power := s.power.elapse n
    tb := s.tb.elapse clock n
    ch := if clock then s.ch.map (·.age (addTicks s.tb.now n)) else s.ch
    sched := s.sched.elapse n
    link := s.link.elapse n }

/-- The one operation by which time moves: the present instant ends and n ticks pass. -/
def State.elapse (s : State) (n : Nat) : State := if n = 0 then s else s.instantOver.pass n

/-- Time passes until an instant of device time, if it is still to come (log 2). -/
def State.waitUntil (s : State) (t : Time) : State :=
  if later t s.tb.now then s.elapse (ticksSince t s.tb.now) else s

/-- The outcome of a step that leaves the block in a state. -/
def done (s : State) : Host.Outcome State Fault Refusal := .next s.settle

/-! ### Requests and replies (R169, R179) -/

/-- What an owner returns for a request: the result code, the reply fields after it and what the reply's departure brings. -/
structure Answer where
  code : ResultCode
  extra : List Byte := []
  effect : ReplyEffect := .nothing
deriving DecidableEq, Repr

/-- A failing field (R179): BAD_VALUE with the field number. -/
def badValue (field : Nat) : Answer := { code := .badValue, extra := le1 field }

/-- CONFLICT with the channel concerned (R179). -/
def conflict (c : Chan) : Answer := { code := .conflict, extra := le1 (chanCode c) }

/-- The reply frame's payload (R179). -/
def Answer.payload (a : Answer) (type : Byte) : List Byte := type :: byte a.code.code :: a.extra

/-- The reply joins the tail of the outbound queue (R169). -/
def State.pushReply (s : State) (type tag : Byte) (a : Answer) : State :=
  s.modLink (fun l => { l with out := l.out ++ [.reply tag (a.payload type) a.effect] })

/-- The link's checks of a taken frame (R169) and its reply: length, then LOCKED unless the type is passed in LOCKED, then the
owner. Where no request can be taken the command does not happen (log 3). -/
def takeRequest {α : Type} (type tag : Byte) (passLocked : Bool) (fields : Option α)
    (owner : α → State → State × Answer) (s : State) : Host.Outcome State Fault Refusal :=
  if s.canTake then
    match fields with
    | none => done (s.pushReply type tag { code := .badLength })
    | some a =>
      if s.tb.dev == .locked && !passLocked then done (s.pushReply type tag { code := .locked })
      else
        let r := owner a s
        done (r.1.pushReply type tag r.2)
  else .next s

/-- A request that addresses a channel (R18): a channel field that names no channel fails as field 1. -/
def onChannel (n : Nat) (owner : Chan → State → State × Answer) (s : State) : State × Answer :=
  match chanOf n with
  | none => (s, badValue 1)
  | some c => owner c s

/-! ### Timeline (R104 to R107, R114, R115) -/

/-- Slot of a channel's request (R102). -/
def slotOf (c : Chan) (p : Purpose) : Nat :=
  match p with
  | .shuntB => 2 * (chanCode c - 1) + 1
  | .sense => 6 + (chanCode c - 1)
  | _ => 2 * (chanCode c - 1)

/-- Slot of an aux source (R102). -/
def auxSlot (a : AuxSource) : Nat := 9 + a.code

/-- Class level of a slot (R102, R103). -/
def Scheduler.level (q : Scheduler) (slot : Nat) : Nat :=
  if slot ≤ 5 then q.shuntLevel else if slot ≤ 8 then q.senseLevel else q.auxLevel

/-- Timeline order (R104): earlier due, then higher level, then lower slot. -/
def Entry.before (a b : Entry) : Bool :=
  later b.due a.due || (a.due == b.due && (b.level < a.level || (a.level == b.level && a.slot < b.slot)))

def insertEntry (e : Entry) : List Entry → List Entry
  | [] => [e]
  | x :: xs => if e.before x then e :: x :: xs else x :: insertEntry e xs

def Scheduler.occupied (q : Scheduler) (slot : Nat) : Bool := q.timeline.any (·.slot == slot)

def Entry.ownedBy (e : Entry) (c : Chan) : Bool := e.owner == .chan c

/-- How many timeline entries a channel has. -/
def Scheduler.waiting (q : Scheduler) (c : Chan) : Nat := q.timeline.countP (·.ownedBy c)

/-- One if the conversion in progress is the channel's. -/
def Scheduler.converting (q : Scheduler) (c : Chan) : Nat :=
  match q.conv with
  | none => 0
  | some k => if k.entry.ownedBy c then 1 else 0

/-- A channel's waiting entries are removed as FLUSHED and counted (R114). -/
def State.flushChan (s : State) (c : Chan) : State :=
  let n := s.sched.waiting c
  ({ s with sched := { s.sched with timeline := s.sched.timeline.filter (fun e => !e.ownedBy c) } } : State).modCh c
    (fun k => { k with flushed := k.flushed + BitVec.ofNat 32 n })

/-- The whole timeline is flushed (R115). -/
def State.flushAll (s : State) : State :=
  { s with
    sched := { s.sched with timeline := [] }
    ch :=
      ⟨{ s.ch.m1 with flushed := s.ch.m1.flushed + BitVec.ofNat 32 (s.sched.waiting .m1) },
       { s.ch.m2 with flushed := s.ch.m2.flushed + BitVec.ofNat 32 (s.sched.waiting .m2) },
       { s.ch.m3 with flushed := s.ch.m3.flushed + BitVec.ofNat 32 (s.sched.waiting .m3) }⟩ }

/-- A plan's request enters the timeline at the period start t and is counted (R105). The slot is free (R106); where it is not,
which no run reaches, nothing enters (log 24). -/
def State.insertRequest (s : State) (c : Chan) (t : Time) (seq : Seq) (r : PlanRequest) : State :=
  let slot := slotOf c r.purpose
  if s.sched.occupied slot then s
  else
    let e : Entry :=
      { slot := slot, owner := .chan c, purpose := r.purpose, due := addTicks t r.due, tol := some r.tol,
        level := s.sched.level slot, seq := seq, merged := none }
    ({ s with sched := { s.sched with timeline := insertEntry e s.sched.timeline } } : State).modCh c
      (fun k => { k with requested := k.requested + 1 })

/-- A plan's requests enter the timeline in their order (R74, R105). -/
def State.insertRequests (s : State) (c : Chan) (t : Time) (p : Plan) : State :=
  p.requests.foldl (fun a r => a.insertRequest c t p.seq r) s

/-! ### Leaving the plan-computing states (R27, R32) -/

/-- Both plans are discarded, the channel's entries flushed, its compare cancelled and its working record dropped (R27, R30,
R125). -/
def State.endRun (s : State) (c : Chan) : State :=
  (s.flushChan c).modCh c (fun k =>
    { k with
      nextPlan := none
      curPlan := none
      sq := { k.sq with compare := none }
      rb := { k.rb with work := none } })

/-- The channel enters STOPPED with every gate off and its plans discarded (R27, R38, R39, R87). -/
def State.toStopped (s : State) (c : Chan) : State :=
  ((s.endRun c).modGates c (·.allOff s.tb.now s.tb.d)).modCh c (fun k => { k with state := .stopped })

/-- Details of CAL_FAILED (Table 11-6). -/
inductive CalFailure where
  | range | timeout | aborted
deriving DecidableEq, Repr

def CalFailure.code : CalFailure → Nat
  | .range => 0
  | .timeout => 1
  | .aborted => 2

/-- A calibration ends without changing Z (R38, R39). -/
def State.calFailed (s : State) (c : Chan) (f : CalFailure) : State :=
  (s.toStopped c).queueEvent .calFailed (some c) f.code

/-! ### Trip causes (R30, R137 to R140) -/

/-- The bit of a cause in the set of further causes. -/
def TripCause.bit (k : TripCause) : BitVec 8 := BitVec.ofNat 8 (2 ^ (k.code - 1))

/-- The record with a further cause (R140). -/
def TripRecord.join (r : TripRecord) (k : TripCause) : TripRecord :=
  if k = r.first then r else { r with further := r.further ||| k.bit }

/-- The idle mark of a TRIP record's detail (Table 11-6). -/
def idleMark : Nat := 256

/-- The safe state a trip puts in force (R137). -/
def tripSafe (cfg : ConfigRecord) (k : TripCause) : SafeState := if k = .faultInput then .openAll else cfg.safe

/-- The gates at a trip (R138, R139): braking with SHORT in force they do not change. -/
def tripGates (wasBraking : Bool) (safe : SafeState) (g : Gates) (now : Time) (d : Nat) : Gates :=
  match safe with
  | .openAll => g.allOff now d
  | .short => if wasBraking then g else g.bottomsOn now d

/-- A driving channel enters TRIPPED (R30). -/
def State.enterTripped (s : State) (c : Chan) (k : TripCause) : State :=
  let ch := s.chan c
  let safe := tripSafe ch.active k
  let seq := s.masterSeqNow
  let t := (s.endRun c).modGates c (fun g => tripGates (ch.state == .braking) safe g s.tb.now s.tb.d)
  let u := t.modCh c (fun x =>
    { x with state := .tripped, safe := some safe, trip := some { first := k, seq := seq, further := 0 } })
  u.queueEvent .trip (some c) k.code

/-- A trip cause reaches a channel (R140). -/
def State.reachCause (s : State) (c : Chan) (k : TripCause) : State :=
  match (s.chan c).state with
  | .tripped =>
    (s.modCh c (fun x => { x with trip := x.trip.map (·.join k) })).queueEvent .trip (some c) k.code
  | .calibrating =>
    let t := if k = .faultInput ∨ k = .supervision then s.calFailed c .aborted else s
    t.queueEvent .trip (some c) (k.code + idleMark)
  | .stopped => s.queueEvent .trip (some c) (k.code + idleMark)
  | .unconfigured => s.queueEvent .trip (some c) (k.code + idleMark)
  | .vector => s.enterTripped c k
  | .align => s.enterTripped c k
  | .ramp => s.enterTripped c k
  | .closed => s.enterTripped c k
  | .braking => s.enterTripped c k

/-- A cause is sent to the channels whose state satisfies a test, in the order M1, M2, M3. -/
def State.sendCause (s : State) (k : TripCause) (who : ChanState → Bool) : State :=
  Chan.all.foldl (fun a c => if who (a.chan c).state then a.reachCause c k else a) s

/-- A fault input assertion is taken (R142, R143): the gates turn off whatever the state, a safe state in force becomes OPEN, and
the cause reaches the channel. -/
def State.faultAsserted (s : State) (c : Chan) : State :=
  let t := (s.modGates c (·.allOff s.tb.now s.tb.d)).modCh c (fun x => { x with safe := x.safe.map (fun _ => .openAll) })
  t.reachCause c .faultInput

/-- The kept levels are taken from the inputs, and each asserted input gives an assertion (R12, R15, R141). -/
def State.sampleFaults (s : State) : State :=
  Chan.all.foldl (fun a c => if a.prot.pins.get c then a.faultAsserted c else a)
    { s with prot := { s.prot with levels := s.prot.pins } }

/-! ### Carrier restart (R2, R5, R6, R119) -/

/-- A channel at a carrier restart: its sequence is 0 and its period starts are paired anew (R6). -/
def Channel.restart (k : Channel) (now : Time) : Channel :=
  let t := addTicks now k.active.offset
  let off := k.state == .unconfigured
  { k with
    seq := 0
    latest := none
    nextStart := if off then none else some (t, 0)
    nextHalf := if off then none else some ⟨t, false⟩ }

/-- The carrier restarts at this instant: the count is 0, counting up, and a master period start of sequence 0 is raised now (it
is the next command's to take, log 6); aux wait counts return to 0. -/
def State.carrierRestart (s : State) : State :=
  let now := s.tb.now
  { s with
    tb :=
      { s.tb with
        count := 0
        up := true
        masterSeq := 0
        masterStart := now
        masterTaken := 0
        masterNext := now
        masterNextSeq := 0 }
    ch := s.ch.map (·.restart now)
    sched := { s.sched with aux := s.sched.aux.map (fun a => { a with wait := 0 }) } }

end Sys2Proof.Machine
end

