-- ==== Sys2Proof/Machine/Flags.lean ====
section
/-!
DEFINITION. The "sum of" flag fields and the payloads that gather them: period reports (R134, R180) and the STATUS parts (R40,
R122, R179, Tables 11-3 and 11-4). A byte that belongs to an absent thing and has no value in the tables is a free value (log 8).
-/

namespace Sys2Proof.Machine

/-- A plan's flags: 1 stretched-first, 2 stretched-last, 4 window A short, 8 window B short, 16 sense short (R180). -/
def Plan.flags (p : Plan) : Nat :=
  match p.body with
  | .vector v => flag 1 v.stretchedFirst + flag 2 v.stretchedLast + flag 4 v.shortA + flag 8 v.shortB
  | .step t => flag 4 t.shortA + flag 16 t.senseShort
  | .cal => 0

/-- Validity: 1 U, 2 V, 4 W (R180). -/
def validity (c : PerPhase Current) : Nat := flag 1 c.u.valid + flag 2 c.v.valid + flag 4 c.w.valid

def currentBytes (c : PerPhase Current) : List Byte := le2s c.u.value ++ le2s c.v.value ++ le2s c.w.value

/-- The kind part of a report (R180). -/
def reportTail (w : WorkRecord) : List Byte :=
  match w.plan.body with
  | .vector v => le2 v.angleInt ++ le2 v.angleFrac ++ le2 v.amp ++ le2 v.winA ++ le2 v.winB
  | .step t => le1 (match w.sampled with | some (i, _) => i | none => 0xFF) ++ le2 t.duty
  | .cal => []

/-- Latest bus raw code (0xFFFF absent) and its age, a free byte where absent (R180, log 8). -/
def busBytes (bus : Option AuxResult) (free : Byte) : List Byte :=
  match bus with
  | some b => le2 b.raw ++ le1 b.age
  | none => le2 0xFFFF ++ [free]

/-- The payload of a REPORT frame (R134, R180), for the closed period's working record. -/
def State.reportPayload (s : State) (c : Chan) (w : WorkRecord) : List Byte :=
  let k := s.chan c
  le1 (chanCode c) ++ le1 k.active.kind.code ++ le1 k.state.code ++ le2 w.plan.seq.toNat ++ le4 w.start.toNat ++
    le2 s.masterSeqNow.toNat ++ currentBytes k.rb.cur ++ le1 (validity k.rb.cur) ++ le1 w.plan.flags ++
    le1 w.placeA.code ++ le1 w.placeB.code ++ le2 w.placeA.lateness ++ le2 w.placeB.lateness ++ le1 k.rb.overCount ++
    busBytes s.prot.bus (Config.freeByte s.fresh 0) ++ reportTail w

/-! ### Device STATUS (Table 11-3) -/

def triple (p : PerChan Nat) : List Byte := le2 p.m1 ++ le2 p.m2 ++ le2 p.m3

def State.devicePart0 (s : State) : List Byte :=
  le1 s.tb.dev.code ++ le2 s.tb.h ++ le1 s.tb.d ++ le2 s.masterSeqNow.toNat ++ le1 (flag 1 s.sup.enabled) ++
    le2 s.sup.tc ++ le2 s.sup.te ++ le2 s.sup.count ++ le1 s.sup.stage ++ le2 (s.sup.expected.getD 256) ++
    le2 (s.sup.heartbeat.getD 0xFFFF) ++ le2 s.link.discarded ++ triple s.link.replaced ++ triple s.link.skipped

def AuxEntry.bytes (a : AuxEntry) : List Byte := le1 a.source.code ++ le2 a.instant ++ le1 a.divider

def Scheduler.activityBytes (q : Scheduler) : List Byte :=
  match q.conv with
  | none => le1 0 ++ le1 0xFF ++ le1 0xFF
  | some k => le1 1 ++ le1 k.entry.slot ++ le1 k.input

def Scheduler.firstBytes (q : Scheduler) : List Byte :=
  match q.timeline with
  | [] => le1 0xFF ++ le4 0
  | e :: _ => le1 e.slot ++ le4 e.due.toNat

def State.devicePart1 (s : State) : List Byte :=
  le1 s.sched.shuntLevel ++ le1 s.sched.senseLevel ++ le1 s.sched.auxLevel ++ s.sched.activityBytes ++
    le1 s.sched.timeline.length ++ s.sched.firstBytes ++ s.sched.aux.flatMap AuxEntry.bytes

/-- A latest result: raw code (0xFFFF absent), merged count, age; the last two free where absent (log 8). -/
def resultBytes (r : Option AuxResult) (free0 free1 : Byte) : List Byte :=
  match r with
  | some a => le2 a.raw ++ le1 a.merged ++ le1 a.age
  | none => le2 0xFFFF ++ [free0, free1]

def State.devicePart2 (s : State) : List Byte :=
  let f := Config.freeByte s.fresh
  resultBytes s.prot.bus (f 0) (f 1) ++ resultBytes s.prot.temp (f 2) (f 3) ++ resultBytes s.prot.spare1 (f 4) (f 5) ++
    resultBytes s.prot.spare2 (f 6) (f 7) ++ le1 s.prot.busCond.code ++ le1 s.prot.tempCond.code ++
    le1 s.prot.staleCount ++ le2 s.prot.busOver ++ le2 s.prot.busUnder ++ le2 s.prot.tempWarn ++ le2 s.prot.tempTrip

/-- A part of device STATUS; none where the number names no part (R178). -/
def State.devicePart (s : State) (part : Nat) : Option (List Byte) :=
  match part with
  | 0 => some s.devicePart0
  | 1 => some s.devicePart1
  | 2 => some s.devicePart2
  | _ => none

/-! ### Channel STATUS (Table 11-4) -/

/-- First cause (0 absent), master sequence at trip, further causes. Without a trip record the sequence is free (log 8), and the sum of
the further causes is 0, as of any "sum of" field of which none holds (R176). -/
def tripBytes (t : Option TripRecord) (f : Nat → Byte) : List Byte :=
  match t with
  | some r => le1 r.first.code ++ le2 r.seq.toNat ++ le1 r.further.toNat
  | none => le1 0 ++ [f 0, f 1] ++ le1 0

/-- Period sequence of the latest currents, free where absent (log 8). -/
def curSeqBytes (q : Option Seq) (f : Nat → Byte) : List Byte :=
  match q with
  | some v => le2 v.toNat
  | none => [f 3, f 4]

def State.channelPart0 (s : State) (c : Chan) : List Byte :=
  let k := s.chan c
  let f := Config.freeByte s.fresh
  le1 k.state.code ++ le1 k.active.kind.code ++ le1 k.active.safe.code ++
    le1 (match k.safe with | some x => x.code | none => 0xFF) ++ le2 k.seq.toNat ++
    le1 (flag 1 k.slot.isSome + flag 2 k.live.isSome + flag 4 (s.prot.levels.get c)) ++ le2 k.superseded ++
    tripBytes k.trip f ++ le2 k.z ++ le4 k.calSum ++ le1 k.calResults ++ le2 k.calPeriods ++ currentBytes k.rb.cur ++
    le1 (validity k.rb.cur + flag 8 k.rb.curSeq.isSome) ++ curSeqBytes k.rb.curSeq f

/-- How many of a channel's requests are waiting or converting (R121). -/
def Scheduler.outstanding (q : Scheduler) (c : Chan) : Nat := q.waiting c + q.converting c

def kindBytes (k : Channel) : List Byte :=
  match k.active.kind with
  | .vector => le2 k.vm.amp ++ le4s k.vm.rate ++ le2 (k.vm.acc / 65536) ++ le2 (k.vm.acc % 65536) ++ le2 k.vm.age
  | .step =>
    le1 k.sq.index ++ le1 k.sq.dir.code ++ le1 k.sq.seg ++ le2 k.sq.t60 ++ le1 k.sq.p ++ le1 k.sq.miss ++
      le1 k.sq.qualified

def State.channelPart1 (s : State) (c : Chan) : List Byte :=
  let k := s.chan c
  le4 k.requested.toNat ++ le4 k.converted.toNat ++ le4 k.late.toNat ++ le4 k.flushed.toNat ++
    le1 (s.sched.outstanding c) ++ kindBytes k

/-- A part of channel STATUS; none where the number names no part (R178). -/
def State.channelPart (s : State) (c : Chan) (part : Nat) : Option (List Byte) :=
  match part with
  | 0 => some (s.channelPart0 c)
  | 1 => some (s.channelPart1 c)
  | _ => none

/-! ### TXD (R161) -/

/-- The bits of a character on the line: start bit low, eight data bits least significant first, stop bit high. -/
def charBits (c : Byte) : List Bool :=
  [false, c.getLsbD 0, c.getLsbD 1, c.getLsbD 2, c.getLsbD 3, c.getLsbD 4, c.getLsbD 5, c.getLsbD 6, c.getLsbD 7, true]

/-- The level of TXD now: the bit of the frame being sent, high between frames. -/
def State.txdLevel (s : State) : Bool :=
  match s.link.tx with
  | .sending cs _ left =>
    let past := s.link.frameTicks cs - left
    (cs.flatMap charBits).getD (past / s.link.rate.bitTicks) true
  | _ => true

end Sys2Proof.Machine
end

