-- ==== Sys2Proof/Machine/Rebuild.lean ====
section
/-!
DEFINITION. The current rebuilder (ch.7): the working record, the close of a period, the over-limit count and the period reports,
with the link's handling of a report (R171).
-/

namespace Sys2Proof.Machine

def State.modRb (s : State) (c : Chan) (f : Rebuilder → Rebuilder) : State :=
  s.modCh c (fun k => { k with rb := f k.rb })

/-! ### The working record (R125) -/

/-- A place at the beginning of a record: WAITING when the plan placed a request of one of the purposes. -/
def startPlace (rs : List PlanRequest) (ps : List Purpose) : Place :=
  if rs.any (fun r => ps.contains r.purpose) then .waiting else .notPlaced

/-- The working record of a plan that becomes current at t; a calibration plan begins none (R125). -/
def newWork (p : Plan) (t : Time) : Option WorkRecord :=
  match p.body with
  | .cal => none
  | _ => some
    { plan := p
      start := t
      placeA := startPlace p.requests [.shuntA]
      placeB := startPlace p.requests [.shuntB, .sense]
      sampled := none }

/-- Records an outcome at its place (R125). -/
def WorkRecord.setPlace (w : WorkRecord) (p : Purpose) (x : Place) : WorkRecord :=
  match p with
  | .shuntA => { w with placeA := x }
  | .shuntB => { w with placeB := x }
  | .sense => { w with placeB := x }
  | _ => w

/-- An outcome reaches the working record, if it belongs to the record's plan (R125). -/
def Rebuilder.record (r : Rebuilder) (seq : Seq) (f : WorkRecord → WorkRecord) : Rebuilder :=
  { r with work := r.work.map (fun w => if w.plan.seq = seq then f w else w) }

/-- The step a step plan's SHUNT_A was sampled under, and the validity of its floating phase (R129), by whether a commutation has been
applied since the conversion's start. -/
def StepSeq.sampledRoles (q : StepSeq) (commutated : Bool) (index : Nat) : Nat × Bool :=
  if commutated then (prevIndex q.dir index, false) else (index, q.blanking == 0)

/-- The step index the record's plan has now: that of the current plan (R68). -/
def Channel.planIndex (k : Channel) : Nat :=
  match k.curPlan with
  | some p => match p.body with
    | .step t => t.index
    | _ => k.sq.index
  | none => k.sq.index

/-- A shunt result reaches the rebuilder (R125). -/
def State.shuntResult (s : State) (c : Chan) (v : Conversion) (raw : Nat) (lateness : Nat) : State :=
  let k := s.chan c
  s.modRb c (·.record v.entry.seq (fun w =>
    let w' := w.setPlace v.entry.purpose (.converted raw v.start lateness)
    match w.plan.body with
    | .step _ => { w' with sampled := some (k.sq.sampledRoles v.commutated k.planIndex) }
    | _ => w'))

/-! ### Currents (R126 to R129) -/

def Place.raw : Place → Option Nat
  | .converted r _ _ => some r
  | _ => none

def validCurrent (i : Int) : Current := { value := i, valid := true }

def invalidCurrents : PerPhase Current := ⟨.invalid, .invalid, .invalid⟩

/-- The currents of first, middle and last phase of a vector period (R127). -/
def vectorTriple (a b : Option Nat) (z : Nat) : Current × Current × Current :=
  match a, b with
  | some x, some y =>
    let f := (x : Int) - z
    let l := -((y : Int) - z)
    (validCurrent f, validCurrent (-(f + l)), validCurrent l)
  | some x, none => (validCurrent ((x : Int) - z), .invalid, .invalid)
  | none, some y => (.invalid, .invalid, validCurrent (-((y : Int) - z)))
  | none, none => (.invalid, .invalid, .invalid)

/-- The currents of a closed period (R127, R128 for a vector period, R129 for a step period). -/
def formCurrents (w : WorkRecord) (z : Nat) : PerPhase Current :=
  match w.plan.body with
  | .vector v =>
    let t := vectorTriple w.placeA.raw w.placeB.raw z
    ((invalidCurrents.set v.first t.1).set v.middle t.2.1).set v.last t.2.2
  | .step _ =>
    match w.placeA.raw, w.sampled with
    | some x, some (i, floatValid) =>
      let a := (x : Int) - z
      ((invalidCurrents.set (highPhase i) (validCurrent a)).set (lowPhase i) (validCurrent (-a))).set (floatPhase i)
        { value := 0, valid := floatValid }
    | _, _ => invalidCurrents
  | .cal => invalidCurrents

/-- A valid current whose magnitude exceeds a limit (R131). -/
def Current.exceeds (x : Current) (limit : Nat) : Bool := x.valid && limit < x.value.natAbs

/-- The over-limit count after a close (R131). -/
def overAfter (n : Nat) (x : PerPhase Current) (limit : Nat) : Nat :=
  if x.u.exceeds limit || x.v.exceeds limit || x.w.exceeds limit then min 15 (n + 1)
  else if x.u.valid && x.v.valid && x.w.valid then 0
  else n

/-! ### Reports (R133, R135, R171) -/

def bump16 (p : PerChan Nat) (c : Chan) : PerChan Nat := p.set c (min 65535 (p.get c + 1))

/-- The link is handed a report (R171): it replaces an untransmitted one of its channel, joins the tail, or is skipped. -/
def Link.handReport (l : Link) (c : Chan) (payload : List Byte) : Link :=
  if l.out.any (·.isReport c) then
    { l with
      out := l.out.map (fun f => if f.isReport c then .report c payload else f)
      replaced := bump16 l.replaced c }
  else if l.out.length < outRoom then { l with out := l.out ++ [.report c payload] }
  else { l with skipped := bump16 l.skipped c }

/-- A report of the closed period is built and handed to the link, and the report count is 0 (R133 to R135). -/
def State.emitReport (s : State) (c : Chan) (w : WorkRecord) : State :=
  let bytes := s.reportPayload c w
  ({ s.modLink (·.handReport c bytes) with fresh := s.fresh + 1 } : State).modRb c (fun r => { r with report := 0 })

/-- Step 4 of a close (R133). -/
def State.reportStep (s : State) (c : Chan) (w : WorkRecord) : State :=
  let k := s.chan c
  if k.active.report = 0 then s.modRb c (fun r => { r with report := 0 })
  else if k.active.report ≤ k.rb.report + 1 then s.emitReport c w
  else s.modRb c (fun r => { r with report := r.report + 1 })

/-- Step 5 of a close (R132): a channel in a running state whose over-limit count has reached the limit periods in force is tripped.
The count is the one that step 3 leaves; and where the count that stood before it is already at or above the limit periods, a live change
has lowered them, since every close before this one found it below, and the channel is tripped whatever the closed period's currents
were (DEDUCED, log 43). -/
def State.limitStep (s : State) (c : Chan) (before : Nat) : State :=
  let k := s.chan c
  if k.state.running && (k.active.limitPeriods ≤ k.rb.overCount || k.active.limitPeriods ≤ before) then s.reachCause c .currentLimit
  else s

/-- Steps 1 to 3 of a close (R130, R131). -/
def State.formStep (s : State) (c : Chan) (w : WorkRecord) : State :=
  let k := s.chan c
  let x := formCurrents w k.z
  s.modRb c (fun r =>
    { r with cur := x, curSeq := some w.plan.seq, overCount := overAfter r.overCount x k.active.curLimit })

/-- The close of a period (R130), for a channel that holds a working record. The count that stands when it begins goes to step 5. -/
def State.closePeriod (s : State) (c : Chan) : State :=
  match (s.chan c).rb.work with
  | none => s
  | some w => ((s.formStep c w).reportStep c w).limitStep c (s.chan c).rb.overCount

end Sys2Proof.Machine
end

