-- ==== Sys2Proof/Machine/Steps.lean ====
section
/-!
DEFINITION. The step sequencer (ch.5): the course of the profile run, commutations, zero-crossing detection, qualification and
handover, and closed-loop timing.
-/

namespace Sys2Proof.Machine

def State.modSched (s : State) (f : Scheduler → Scheduler) : State := { s with sched := f s.sched }

def State.modSq (s : State) (c : Chan) (f : StepSeq → StepSeq) : State :=
  s.modCh c (fun k => { k with sq := f k.sq })

/-- The segment at a profile place; a free one where the place is empty, which no run reaches (log 25). -/
def State.segmentAt (s : State) (c : Chan) (i : Nat) : Segment :=
  ((s.chan c).sq.profile.getD i none).getD (Config.freeSegment s.fresh)

/-- The segment in force. -/
def State.segment (s : State) (c : Chan) : Segment := s.segmentAt c (s.chan c).sq.seg

def State.setCompare (s : State) (c : Chan) (due : Time) (kind : CompareKind) : State :=
  s.modSq c (fun q => { q with compare := some { due := due, kind := kind, reached := false } })

/-! ### The beginning of a run (R83) -/

/-- The first plan of a run becomes current at t: the first segment begins (R83). -/
def State.runBegins (s : State) (c : Chan) (t : Time) : State :=
  let k := s.chan c
  let g := s.segment c
  match g.kind with
  | .align => s.setCompare c (addTicks t g.hold) .forced
  | .ramp =>
    (s.modSq c (fun q => { q with lastComm := some t, blanking := k.active.blanking, found := false })).setCompare c
      (addTicks t (g.stepTicks 0)) .forced

/-! ### Commutation (R69, R85) -/

def Plan.withIndex (p : Plan) (i : Nat) : Plan :=
  match p.body with
  | .step t => { p with body := .step { t with index := i } }
  | _ => p

/-- C of a step plan. -/
def Plan.stepC (p : Plan) : Option Nat :=
  match p.body with
  | .step t => some t.cmp.c
  | _ => none

/-- Where a commutation at t falls in the channel's period (R69). -/
def Channel.commPoint (k : Channel) (t : Time) (peak : Bool) : CommPoint :=
  if peak then .atPeak else if k.latest = some t then .atStart else .beforeStart

/-- A commutation of a channel reaches its conversion in progress, for R129. -/
def Scheduler.noteCommutation (q : Scheduler) (c : Chan) : Scheduler :=
  { q with conv := q.conv.map (fun v => if v.entry.ownedBy c then { v with commutated := true } else v) }

/-- A commutation at the half-period point t (R85): the step index moves, the pattern changes, the current plan's roles are
rewritten and the new step begins. The next compare is the caller's. -/
def State.commutate (s : State) (c : Chan) (t : Time) (peak : Bool) : State :=
  let now := s.tb.now
  let h := s.tb.h
  let d := s.tb.d
  (s.modSched (·.noteCommutation c)).modCh c (fun k =>
    let i := k.sq.index
    let j := nextIndex k.sq.dir i
    { k with
      sq :=
        { k.sq with
          index := j
          lastComm := some t
          blanking := k.active.blanking
          found := false
          prev := none
          compare := none }
      gates :=
        match k.curPlan.bind Plan.stepC with
        | some cc => Gates.commutate k.gates i j (k.commPoint t peak) h d cc now
        | none => k.gates
      curPlan := k.curPlan.map (·.withIndex j) })

/-! ### The application of a compare (R84 to R87, R96, R97) -/

/-- A run that reaches the end of its range (R87). -/
def State.startFailed (s : State) (c : Chan) : State :=
  let last := (s.chan c).sq.last
  (s.toStopped c).queueEvent .startFailed (some c) last

/-- Enters a segment of the range without or after a commutation: ALIGN holds from t, RAMP begins its forced step 0 (R86). R86 says
nothing of the forced step number on entering an ALIGN segment, where no step is forced: the model sets it to 0 there too (DESIGN CHOICE,
log 44). -/
def State.enterSegment (s : State) (c : Chan) (i : Nat) (t : Time) : State :=
  let g := s.segmentAt c i
  let u := s.modSq c (fun q => { q with seg := i, j := 0 })
  match g.kind with
  | .align => (u.modCh c (fun k => { k with state := .align })).setCompare c (addTicks t g.hold) .forced
  | .ramp => (u.modCh c (fun k => { k with state := .ramp })).setCompare c (addTicks t (g.stepTicks 0)) .forced

/-- A FORCED compare is applied at the half-period point t (R86). -/
def State.advanceRun (s : State) (c : Chan) (t : Time) (peak : Bool) : State :=
  let k := s.chan c
  let g := s.segment c
  let holding := k.state == .align
  let s1 := s.modSq c (fun q => if holding || !q.found then { q with qualified := 0 } else q)
  if !holding && k.sq.j + 1 < g.repeats then
    ((s1.commutate c t peak).modSq c (fun q => { q with j := q.j + 1 })).setCompare c
      (addTicks t (g.stepTicks (k.sq.j + 1))) .forced
  else if k.sq.seg < k.sq.last then
    if holding && (s.segmentAt c (k.sq.seg + 1)).kind == .align then s1.enterSegment c (k.sq.seg + 1) t
    else (s1.commutate c t peak).enterSegment c (k.sq.seg + 1) t
  else s1.startFailed c

/-- A miss count at the limit sends LOST_SYNC (R97). -/
def State.lostSyncStep (s : State) (c : Chan) : State :=
  let k := s.chan c
  if k.state = .closed ∧ k.active.missLimit ≤ k.sq.miss then s.reachCause c .lostSync else s

/-- A compare is applied in CLOSED at the half-period point t: a commutation, a BLIND compare for the new step (R96), and for a
BLIND compare the miss (R97). -/
def State.closedCommutation (s : State) (c : Chan) (t : Time) (peak : Bool) (kind : CompareKind) : State :=
  let q := (s.chan c).sq
  let s1 := (s.commutate c t peak).setCompare c (addTicks t (q.t60 * q.p)) .blind
  if kind = .blind then
    let n := min 7 (q.miss + 1)
    ((s1.modSq c (fun x => { x with miss := n })).queueEvent .blindStep (some c) n).lostSyncStep c
  else s1

/-- The work of a half-period point at t (R7, R84): a compare whose due instant is not after t is applied. -/
def State.applyCompare (s : State) (c : Chan) (t : Time) (peak : Bool) : State :=
  let k := s.chan c
  match k.sq.compare with
  | none => s
  | some x =>
    if notBefore t x.due then
      match k.state with
      | .align => s.advanceRun c t peak
      | .ramp => s.advanceRun c t peak
      | .closed => s.closedCommutation c t peak x.kind
      | _ => s
    else s

/-! ### Crossings (R91 to R96) -/

/-- The interval from the last zero crossing to an instant; free where there is none, which no run reaches (log 9). -/
def State.crossingInterval (s : State) (c : Chan) (tzc : Time) : Nat :=
  match (s.chan c).sq.lastZc with
  | some u => ticksSince tzc u
  | none => Config.freeInterval s.fresh

/-- The crossing is found: detection closes and its instant becomes the last zero crossing (R91). -/
def State.crossingFound (s : State) (c : Chan) (tzc : Time) : State :=
  s.modSq c (fun q => { q with found := true, lastZc := some tzc })

/-- The crossing lies in the middle half of its forced step (R92). -/
def State.inSpan (s : State) (c : Chan) (tzc : Time) : Bool :=
  let q := (s.chan c).sq
  let d := (s.segment c).stepTicks q.j
  match q.lastComm with
  | none => false
  | some u => d / 4 ≤ ticksSince tzc u && ticksSince tzc u ≤ 3 * d / 4

/-- The handover at the Q-th consecutive qualifying crossing (R93), with the interval Δ. -/
def State.handOver (s : State) (c : Chan) (tzc : Time) (delta : Nat) : State :=
  match handoverScale delta with
  | none => s.modSq c (fun q => { q with qualified := 0 })
  | some (p, t60) =>
    let duty := (s.segment c).duty
    let a := (s.chan c).sq.advance
    let s1 := (s.modCh c (fun k => { k with state := .closed })).modSq c
      (fun q => { q with t60 := t60, p := p, duty := duty, miss := 0 })
    (s1.setCompare c (addTicks tzc (commutationDelay t60 p a)) .predicted).queueEvent .handover (some c) t60

/-- A crossing found in RAMP (R91, R92, R93). -/
def State.rampCrossing (s : State) (c : Chan) (tzc : Time) (early : Bool) : State :=
  let k := s.chan c
  let delta := s.crossingInterval c tzc
  let s1 := s.crossingFound c tzc
  if !early && s.inSpan c tzc then
    let n := min 15 (k.sq.qualified + 1)
    let s2 := s1.modSq c (fun q => { q with qualified := n })
    if k.active.q ≤ n then s2.handOver c tzc delta else s2
  else s1.modSq c (fun q => { q with qualified := 0 })

/-- A crossing found in CLOSED (R91, R94, R95). -/
def State.closedCrossing (s : State) (c : Chan) (tzc : Time) : State :=
  let q := (s.chan c).sq
  let m := measure q.p q.t60 (s.crossingInterval c tzc)
  ((s.crossingFound c tzc).modSq c (fun x => { x with p := m.1, t60 := m.2, miss := 0 })).setCompare c
    (addTicks tzc (commutationDelay m.2 m.1 q.advance)) .predicted

/-! ### Sense results (R88 to R91) -/

/-- Detection for the current step is open (R88): no crossing has been found in it, and its compare's due instant has not been
reached (R84). -/
def StepSeq.detecting (q : StepSeq) : Bool := !q.found && !(match q.compare with | none => false | some x => x.reached)

/-- The tests of R88, less the first two that concern the channel and the plan: the conversion belongs to the current step and
detection is open. -/
def StepSeq.detects (q : StepSeq) (start : Time) (newFloat : Bool) : Bool :=
  (match q.lastComm with
   | none => true
   | some u => later start u || (start == u && newFloat)) && q.detecting

/-- A sense result's plan has not been discarded (R32, R88). -/
def Channel.holdsPlan (k : Channel) (seq : Seq) : Bool :=
  match k.curPlan with
  | none => false
  | some p => p.seq == seq

/-- The latest bus raw code, if a sense result is referenced (R89): its age is less than 4 master periods. -/
def Protection.reference (p : Protection) : Option Nat :=
  match p.bus with
  | none => none
  | some b => if b.age < 4 then some b.raw else none

/-- A crossing at tzc that is not early can be found now in RAMP (R88 to R92): the channel has its plan, detection is open, the bus
result references a sense result, the blanking is over, and tzc lies between the previous usable result and now. -/
def State.crossingPossible (s : State) (c : Chan) (tzc : Time) : Bool :=
  let k := s.chan c
  k.state == .ramp && k.curPlan.isSome && k.sq.detecting && s.prot.reference.isSome && k.sq.blanking == 0 &&
    (match k.sq.prev with
      | some (u, _) => notBefore tzc u && notBefore s.tb.now tzc
      | none => false)

/-- A result is on the after side of the crossing the step looks for (R91). -/
def afterSide (rising : Bool) (d : Int) : Bool := if rising then 0 ≤ d else d ≤ 0

/-- The crossing instant between the previous usable result and the present one (R91). -/
def interpolate (tPrev : Time) (sPrev : Int) (tCur : Time) (sCur : Int) : Time :=
  addTicks tPrev (ticksSince tCur tPrev * sPrev.natAbs / (sPrev.natAbs + sCur.natAbs))

/-- A usable result that the blanking lets through (R91). -/
def State.classify (s : State) (c : Chan) (start : Time) (d : Int) : State :=
  let k := s.chan c
  if afterSide (risingCrossing k.sq.dir k.sq.index) d then
    let tzc := match k.sq.prev with
      | some (u, e) => interpolate u e start d
      | none => start
    if k.state = .ramp then s.rampCrossing c tzc k.sq.prev.isNone else s.closedCrossing c tzc
  else s.modSq c (fun q => { q with prev := some (start, d) })

/-- A sense result arrives (R88 to R91): the input says which phase was read. -/
def State.senseResult (s : State) (c : Chan) (seq : Seq) (raw : Nat) (start : Time) (input : Nat) (floatInput : Nat) :
    State :=
  let k := s.chan c
  if (k.state == .ramp || k.state == .closed) && k.holdsPlan seq && k.sq.detects start (input == floatInput) then
    match s.prot.reference with
    | none => s
    | some bus =>
      if 0 < k.sq.blanking then s.modSq c (fun q => { q with blanking := q.blanking - 1 })
      else s.classify c start ((raw : Int) - (bus / 2 : Nat))
  else s

end Sys2Proof.Machine
end

