-- ==== Sys2Proof/Machine/Monitor.lean ====
section
/-!
DEFINITION. The protection monitor's results (ch.8 R144 to R147) and host supervision's slow step (ch.9 R154 to R157).
-/

namespace Sys2Proof.Machine

def State.modProt (s : State) (f : Protection → Protection) : State := { s with prot := f s.prot }

def State.modSup (s : State) (f : Supervision → Supervision) : State := { s with sup := f s.sup }

/-! ### Latest results (R144) -/

def Protection.setLatest (p : Protection) (a : AuxSource) (r : AuxResult) : Protection :=
  match a with
  | .bus => { p with bus := some r }
  | .temp => { p with temp := some r }
  | .spare1 => { p with spare1 := some r }
  | .spare2 => { p with spare2 := some r }

def AuxResult.older (r : AuxResult) : AuxResult := { r with age := min 255 (r.age + 1) }

/-- Every present latest result ages by one master period (R144). -/
def Protection.ageAll (p : Protection) : Protection :=
  { p with
    bus := p.bus.map AuxResult.older
    temp := p.temp.map AuxResult.older
    spare1 := p.spare1.map AuxResult.older
    spare2 := p.spare2.map AuxResult.older }

/-! ### Bus and temperature (R145, R146) -/

/-- The bus condition of a raw code (R145). -/
def Protection.busCondOf (p : Protection) (raw : Nat) : BusCond :=
  if p.busOver < raw then .overLimit
  else if p.busUnder ≠ 0 ∧ raw < p.busUnder then .underLimit
  else .normal

/-- Whom a condition's cause reaches (R145, R146): all but UNCONFIGURED when it is entered, the driving channels while it lasts. -/
def causeReach (entered : Bool) (x : ChanState) : Bool := if entered then x != .unconfigured else x.driving

/-- A BUS result is examined (R145) and the staleness count is 0 (R147). -/
def State.examineBus (s : State) (raw : Nat) : State :=
  let before := s.prot.busCond
  let after := s.prot.busCondOf raw
  let t := s.modProt (fun p => { p with busCond := after, staleCount := 0, staleGiven := false })
  match after with
  | .normal => t
  | .overLimit => t.sendCause .busOver (causeReach (before != .overLimit))
  | .underLimit => t.sendCause .busUnder (causeReach (before != .underLimit))

/-- The temperature condition of a raw code (R146). -/
def Protection.tempCondOf (p : Protection) (raw : Nat) : TempCond :=
  if p.tempTrip < raw then .hot else if p.tempWarn < raw then .warm else .normal

/-- A TEMP result is examined (R146). -/
def State.examineTemp (s : State) (raw : Nat) : State :=
  let before := s.prot.tempCond
  let after := s.prot.tempCondOf raw
  let t := s.modProt (fun p => { p with tempCond := after })
  let u := if before = .normal ∧ after ≠ .normal then t.queueEvent .tempWarn none raw else t
  if after = .hot then u.sendCause .temperature (causeReach (before != .hot)) else u

/-- An aux result reaches the monitor (R144 to R146). -/
def State.auxResult (s : State) (a : AuxSource) (raw merged : Nat) : State :=
  let t := s.modProt (·.setLatest a { raw := raw, merged := merged, age := 0 })
  match a with
  | .bus => t.examineBus raw
  | .temp => t.examineTemp raw
  | .spare1 => t
  | .spare2 => t

/-! ### Bus staleness (R147) -/

def State.anyRunning (s : State) : Bool := Chan.all.any (fun c => (s.chan c).state.running)

/-- The count having reached 64, its one BUS_STALE record is queued (R147). -/
def State.busStaleStep (s : State) : State :=
  if s.prot.staleCount = 64 ∧ s.prot.staleGiven = false then
    (s.modProt (fun p => { p with staleGiven := true })).queueEvent .busStale none
      (match s.prot.bus with | some b => b.age | none => 255)
  else s

/-- The staleness count at a master period start (R147). -/
def State.staleCountStep (s : State) : State :=
  if s.anyRunning then (s.modProt (fun p => { p with staleCount := min 64 (p.staleCount + 1) })).busStaleStep
  else s.modProt (fun p => { p with staleCount := 0, staleGiven := false })

/-! ### Host supervision (R154 to R157) -/

/-- Details of SUPERVISION_TRIP (Table 11-6). -/
inductive SupTrip where
  | early | expired
deriving DecidableEq, Repr

def SupTrip.code : SupTrip → Nat
  | .early => 0
  | .expired => 1

/-- A supervision trip (R157). A QUIET entry that is pending is abandoned: it stays pending until its reply departs, and is not
entered then (R10), whether or not RECOVER has ended LOCKED by that time. -/
def State.supervisionTrip (s : State) (k : SupTrip) : State :=
  let t := (s.queueEvent .supervisionTrip none k.code).sendCause .supervision (· != .unconfigured)
  ({ t with tb := { t.tb with dev := .locked, quietDropped := t.tb.quietPending } } : State).modSup
    (fun p => { p with heartbeat := none, running := false })

/-- The expiry of the window, where the count has reached Te (R156). -/
def State.expiryStep (s : State) : State :=
  if s.sup.running && s.sup.te ≤ s.sup.count then
    if s.sup.stage = 0 then
      (s.queueEvent .supervisionLate none (s.sup.expected.getD 256)).modSup
        (fun p => { p with stage := 1, count := 0 })
    else s.supervisionTrip .expired
  else s

/-- A pending heartbeat is evaluated against the raised count (R155). -/
def State.heartbeatStep (s : State) : State :=
  match s.sup.heartbeat with
  | none => s
  | some c =>
    let t := s.modSup (fun p => { p with heartbeat := none })
    if s.sup.count < s.sup.tc then t.supervisionTrip .early
    else
      match s.sup.expected with
      | some e =>
        if e = c then t.modSup (fun p => { p with count := 0, stage := 0, expected := some ((c + 1) % 256) })
        else t.queueEvent .supervisionSequence none (e * 256 + c)
      | none => t.modSup (fun p => { p with count := 0, stage := 0, expected := some ((c + 1) % 256) })

/-- A slow step of a running window (R154). Where step 2 restarted the window the count is 0, below Te; where it tripped the
window has stopped. -/
def State.slowStep (s : State) : State :=
  ((s.modSup (fun p => { p with count := min 2000 (p.count + 1) })).heartbeatStep).expiryStep

end Sys2Proof.Machine
end

