-- ==== Sys2Proof/Machine/Converter.lean ====
section
/-!
DEFINITION. The arbiter, the converter and the handing out of outcomes (ch.6 R100 to R117), with the end of a calibration (ch.2 R37,
R38) that a CAL result may bring.
-/

namespace Sys2Proof.Machine

/-! ### Arbitration (R108, R109) -/

/-- An entry is due (R108). -/
def Entry.isDue (e : Entry) (now : Time) : Bool := notBefore now e.due

/-- The arbiter prefers a to b: higher level, then earlier due, then lower slot (R108). -/
def Entry.beats (a b : Entry) : Bool :=
  b.level < a.level ||
    (a.level == b.level && (later b.due a.due || (a.due == b.due && a.slot < b.slot)))

/-- The arbiter's choice among candidates. -/
def arbiter : List Entry → Option Entry
  | [] => none
  | e :: es =>
    match arbiter es with
    | none => some e
    | some b => if b.beats e then some b else some e

/-- The converter input of an entry at its start (R101): a SENSE entry reads the phase floating now. -/
def State.inputOf (s : State) (e : Entry) : Nat :=
  match e.owner, e.purpose with
  | .chan c, .sense =>
    3 * chanCode c + (match floatPhase (s.chan c).sq.index with | .u => 0 | .v => 1 | .w => 2)
  | .chan c, _ => chanCode c - 1
  | .aux _, .aux a => 12 + a.code
  | .aux _, _ => 12

/-- Ticks of a conversion (R100). -/
def conversionTicks : Nat := 72

/-- An entry's conversion starts now: it leaves the timeline (R109). -/
def State.startConversion (s : State) (e : Entry) : State :=
  s.modSched (fun q =>
    { q with
      timeline := q.timeline.erase e
      conv := some { entry := e, start := s.tb.now, input := s.inputOf e, left := conversionTicks, commutated := false } })

/-! ### Calibration results (R37, R38) -/

/-- The candidate offset (R38). -/
def calCandidate (sum : Nat) : Nat := (sum + 32) / 64

/-- The 64th result ends calibration (R38). -/
def State.calDoneStep (s : State) (c : Chan) : State :=
  let k := s.chan c
  if k.state = .calibrating ∧ 64 ≤ k.calResults then
    let z := calCandidate k.calSum
    if 1648 ≤ z ∧ z ≤ 2448 then
      ((s.toStopped c).modCh c (fun x => { x with z := z })).queueEvent .calDone (some c) z
    else s.calFailed c .range
  else s

/-- A CAL result reaches the channel (R37): it counts while the channel is CALIBRATING and its plan has not been discarded. -/
def State.calResult (s : State) (c : Chan) (seq : Seq) (raw : Nat) : State :=
  let k := s.chan c
  if k.state == .calibrating && k.holdsPlan seq then
    (s.modCh c (fun x => { x with calSum := x.calSum + raw, calResults := x.calResults + 1 })).calDoneStep c
  else s

/-! ### Completion (R110, R111) -/

/-- The result of a channel's conversion is handed to its owner (R111). -/
def State.channelResult (s : State) (c : Chan) (v : Conversion) (raw : Nat) : State :=
  let e := v.entry
  let lateness := ticksSince v.start e.due
  let floatInput := s.inputOf e
  match e.purpose with
  | .cal => s.calResult c e.seq raw
  | .sense =>
    let t := s.modRb c (·.record e.seq (fun w => w.setPlace .sense (.sensed lateness)))
    t.senseResult c e.seq raw v.start v.input floatInput
  | _ => s.shuntResult c v raw lateness

/-- A conversion completes with a raw code (R110): the converter is IDLE, a channel's converted count rises, and the result record
is handed to its owner. -/
def State.completeConversion (s : State) (v : Conversion) (raw : Nat) : State :=
  let t := s.modSched (fun q => { q with conv := none })
  match v.entry.owner, v.entry.purpose with
  | .chan c, _ => (t.modCh c (fun k => { k with converted := k.converted + 1 })).channelResult c v raw
  | .aux _, .aux a => t.auxResult a raw (v.entry.merged.getD 0)
  | .aux _, _ => t

/-! ### Expiry (R112, R113) -/

/-- An entry's expiry instant (R113); aux entries have none. -/
def Entry.expiry (e : Entry) : Option Time :=
  match e.owner, e.tol with
  | .chan _, some n => some (addTicks e.due n)
  | _, _ => none

/-- A channel entry is removed as LATE, counted, and its notice reaches the working record (R112, R113, R125). -/
def State.removeLate (s : State) (c : Chan) (e : Entry) : State :=
  ((s.modSched (fun q => { q with timeline := q.timeline.erase e })).modCh c
      (fun k => { k with late := k.late + 1 })).modRb c (·.record e.seq (fun w => w.setPlace e.purpose .late))

/-! ### Aux insertions (R107, R117) -/

/-- The merged count of a waiting entry rises (R107). -/
def Entry.merge (e : Entry) : Entry := { e with merged := e.merged.map (fun n => min 255 (n + 1)) }

/-- An aux entry's request at the master period start t of sequence m (R107, R117). -/
def Scheduler.insertAux (q : Scheduler) (i : Nat) (a : AuxEntry) (t : Time) (m : Seq) : Scheduler :=
  let slot := auxSlot a.source
  if q.occupied slot then
    { q with timeline := q.timeline.map (fun e => if e.slot = slot then e.merge else e) }
  else
    { q with
      timeline := insertEntry
        { slot := slot, owner := .aux i, purpose := .aux a.source, due := addTicks t a.instant, tol := none,
          level := q.auxLevel, seq := m, merged := some 0 } q.timeline }

/-- Aux entry i at a master period start (R117). -/
def Scheduler.auxTurn (t : Time) (m : Seq) (q : Scheduler) (i : Nat) : Scheduler :=
  match q.aux[i]? with
  | none => q
  | some a =>
    if a.divider = 0 then q
    else if a.wait = 0 then
      { q.insertAux i a t m with aux := q.aux.set i { a with wait := a.divider - 1 } }
    else { q with aux := q.aux.set i { a with wait := a.wait - 1 } }

/-- All four aux entries in index order (R117). -/
def Scheduler.auxPlanTurn (q : Scheduler) (t : Time) (m : Seq) : Scheduler :=
  [0, 1, 2, 3].foldl (Scheduler.auxTurn t m) q

end Sys2Proof.Machine
end

