-- ==== Sys2Proof/Machine/Periods.lean ====
section
/-!
DEFINITION. Period events: MASTER_PERIOD_START, BUS_STALE, CHANNEL_PERIOD_START and what a channel does at it, and the rows that
are one examination of a period start taken by itself: STALE, STALE_TRIP, CAL_TIMEOUT, PERIOD_REPORT, CURRENT_LIMIT (log 5).
-/

namespace Sys2Proof.Machine

/-! ### Master period start (R2, R117, R144, R147) -/

/-- The timebase at a master period start: the raised start is taken, and the next falls 2H later (R2). -/
def Timebase.takeMaster (b : Timebase) : Timebase :=
  let c := carrierAt b.h (ticksSince b.now b.masterNext)
  { b with
    masterSeq := b.masterNextSeq
    masterStart := b.masterNext
    masterTaken := min 2 (b.masterTaken + 1)
    masterNext := addTicks b.masterNext (2 * b.h)
    masterNextSeq := b.masterNextSeq + 1
    count := c.1
    up := c.2 }

/-- The work of a master period start: the sequence advances, the aux plan is read, ages and the staleness count rise. -/
def State.masterWork (s : State) : State :=
  let t := s.tb.masterNext
  let m := s.tb.masterNextSeq
  let s1 : State := { s with tb := s.tb.takeMaster }
  (((s1.modSched (·.auxPlanTurn t m)).modProt Protection.ageAll).staleCountStep)

/-- MASTER_PERIOD_START (R2). -/
def execMasterPeriodStart (s : State) : Host.Outcome State Fault Refusal :=
  if s.clockRuns then done (s.waitUntil s.tb.masterNext).masterWork else .next s

/-- BUS_STALE (R147): the staleness count stands at 64 and its record has not been given. -/
def execBusStale (s : State) : Host.Outcome State Fault Refusal := done s.busStaleStep

/-! ### The period events of a channel (R6, R7) -/

/-- The next half-period point once a period has started at t: the one at t if it is still to come, else the one at t + H. -/
def halfAfterStart (old : Option HalfPoint) (t : Time) (h : Nat) : HalfPoint :=
  match old with
  | some p => if p.peak && p.time == addTicks t h then p else ⟨t, false⟩
  | none => ⟨t, false⟩

/-- A channel's period start m falls at t (R6): the next one follows 2H later. -/
def Channel.beginPeriod (k : Channel) (t : Time) (m : Seq) (h : Nat) : Channel :=
  { k with
    seq := m
    latest := some t
    nextStart := some (addTicks t (2 * h), m + 1)
    nextHalf := some (halfAfterStart k.nextHalf t h) }

/-- Pending live values come into force (R22), and with them a step channel's advance in use (R78). -/
def Channel.liveInForce (k : Channel) : Channel :=
  match k.live with
  | none => k
  | some l =>
    { k with
      active := k.active.withLive l
      live := none
      sq := if k.active.kind = .step then { k.sq with advance := l.advance } else k.sq }

/-! ### Plans (R32) -/

/-- The next plan becomes current at t and its sample requests go to the scheduler (R32, R74, R105); the working record of its
period begins (R125); the first plan of a step run begins the run (R83). -/
def State.planCurrent (s : State) (c : Chan) (t : Time) : State :=
  let k := s.chan c
  match k.nextPlan with
  | none => s.modCh c (fun x => { x with curPlan := none })
  | some n =>
    let p := n.withIndex k.sq.index
    let s1 := s.modCh c (fun x =>
      { x with
        curPlan := some p
        nextPlan := none
        gates := Gates.becomeCurrent x.gates k.curPlan p s.tb.h s.tb.d s.tb.now
        rb := { x.rb with work := newWork p t } })
    let s2 := s1.insertRequests c t p
    if k.curPlan.isNone && p.stepC.isSome then s2.runBegins c t else s2

/-- The plan for the following period (R32, R43 step 5, R79 step 4, R37). -/
def State.planFor (s : State) (c : Chan) (seq : Seq) : Option Plan :=
  let k := s.chan c
  match k.state with
  | .vector => some (makeVectorPlan k.active s.tb.h k.vm seq)
  | .align => some (makeStepPlan k.active s.tb.h s.tb.d k.sq.index (s.segment c).duty false seq)
  | .ramp => some (makeStepPlan k.active s.tb.h s.tb.d k.sq.index (s.segment c).duty true seq)
  | .closed => some (makeStepPlan k.active s.tb.h s.tb.d k.sq.index k.sq.duty true seq)
  | .calibrating => some (makeCalPlan k.active s.tb.h seq)
  | _ => none

/-- The channel computes the plan for its next period and holds it (R32). -/
def State.computePlan (s : State) (c : Chan) (m : Seq) : State :=
  let p := s.planFor c (m + 1)
  s.modCh c (fun k => { k with nextPlan := p })

/-! ### Setpoints (R35, R44, R45, R78) -/

/-- A vector channel applies its setpoint slot, or advances its angle and staleness age (R44, R45, R55). -/
def Channel.vectorStep (k : Channel) : Channel :=
  match k.slot with
  | some (.vector a w theta) =>
    let acc := match theta with
      | some x => x * 65536
      | none => advanceAngle k.vm.acc w
    { k with slot := none, vm := { amp := a, rate := w, acc := acc, age := 0, marker := false } }
  | some (.step _ _) => k
  | none => { k with vm := { k.vm with acc := advanceAngle k.vm.acc k.vm.rate, age := min 4095 (k.vm.age + 1) } }

/-- A step channel in CLOSED applies its setpoint slot (R78). -/
def Channel.stepSetpoint (k : Channel) : Channel :=
  match k.slot with
  | some (.step duty adv) =>
    { k with slot := none, sq := { k.sq with duty := duty, advance := adv.getD k.sq.advance } }
  | _ => k

/-! ### Staleness (R55 to R57) -/

/-- The warning of a stale setpoint (R55). -/
def State.staleWarn (s : State) (c : Chan) : State :=
  let k := s.chan c
  if k.state = .vector ∧ k.active.s1 ≤ k.vm.age ∧ k.vm.marker = false then
    (s.modCh c (fun x => { x with vm := { x.vm with marker := true } })).queueEvent .stale (some c) k.vm.age
  else s

/-- The trip of a stale setpoint (R56). -/
def State.staleTripStep (s : State) (c : Chan) : State :=
  let k := s.chan c
  if k.state = .vector ∧ k.active.s2 ≤ k.vm.age then s.reachCause c .stale else s

/-! ### Calibration (R37, R39) -/

/-- The calibration time has run out (R39). -/
def State.calTimeoutStep (s : State) (c : Chan) : State :=
  let k := s.chan c
  if k.state = .calibrating ∧ 256 ≤ k.calPeriods ∧ k.calResults < 64 then s.calFailed c .timeout else s

/-! ### The work of a period start by state (R23) -/

/-- VECTOR (R43, R130): the close, the setpoint, staleness, the plan handover and the next plan; a trip ends the work. -/
def State.vectorPeriod (s : State) (c : Chan) (t : Time) (m : Seq) : State :=
  let s1 := s.closePeriod c
  if (s1.chan c).state = .vector then
    let s2 := ((s1.modCh c Channel.vectorStep).staleWarn c).staleTripStep c
    if (s2.chan c).state = .vector then (s2.planCurrent c t).computePlan c m else s2
  else s1

/-- ALIGN, RAMP and CLOSED (R79, R130). -/
def State.stepPeriod (s : State) (c : Chan) (t : Time) (m : Seq) : State :=
  let s1 := s.closePeriod c
  let k := s1.chan c
  if k.state.running then
    let s2 := if k.state = .closed then s1.modCh c Channel.stepSetpoint else s1
    (s2.planCurrent c t).computePlan c m
  else s1

/-- CALIBRATING (R37, R39). The rules do not order the timeout at a period start against the plan that waits for it: here the timeout
comes first, so that at the 256th period start the waiting plan is discarded and its CAL request never inserted nor counted (DEDUCED,
log 42). -/
def State.calPeriod (s : State) (c : Chan) (t : Time) (m : Seq) : State :=
  let s1 := (s.modCh c (fun k => { k with calPeriods := min 256 (k.calPeriods + 1) })).calTimeoutStep c
  if (s1.chan c).state = .calibrating then (s1.planCurrent c t).computePlan c m else s1

/-- The work of period start m of a channel, falling at t (R23). -/
def State.periodWork (s : State) (c : Chan) (t : Time) (m : Seq) : State :=
  let s1 := (s.modCh c (fun k => k.beginPeriod t m s.tb.h)).modCh c Channel.liveInForce
  match (s1.chan c).state with
  | .vector => s1.vectorPeriod c t m
  | .align => s1.stepPeriod c t m
  | .ramp => s1.stepPeriod c t m
  | .closed => s1.stepPeriod c t m
  | .calibrating => s1.calPeriod c t m
  | .unconfigured => s1
  | .stopped => s1
  | .braking => s1
  | .tripped => s1

/-- CHANNEL_PERIOD_START (R23): the channel's next period start. -/
def execChannelPeriodStart (c : Chan) (s : State) : Host.Outcome State Fault Refusal :=
  match s.clockRuns, (s.chan c).nextStart with
  | true, some (t, m) => done ((s.waitUntil t).periodWork c t m)
  | _, _ => .next s

/-- STALE (R55): the examination of the staleness age against S1. -/
def execStale (c : Chan) (s : State) : Host.Outcome State Fault Refusal := done (s.staleWarn c)

/-- STALE_TRIP (R56): the examination of the staleness age against S2. -/
def execStaleTrip (c : Chan) (s : State) : Host.Outcome State Fault Refusal := done (s.staleTripStep c)

/-- CAL_TIMEOUT (R39): the examination of the calibration period count. -/
def execCalTimeout (c : Chan) (s : State) : Host.Outcome State Fault Refusal := done (s.calTimeoutStep c)

/-- CURRENT_LIMIT (R132): the examination of the over-limit count that stands. -/
def execCurrentLimit (c : Chan) (s : State) : Host.Outcome State Fault Refusal := done (s.limitStep c (s.chan c).rb.overCount)

/-- PERIOD_REPORT (R133): the report count stands at R or above, and a report of the period in the working record is built. -/
def execPeriodReport (c : Chan) (s : State) : Host.Outcome State Fault Refusal :=
  let k := s.chan c
  match k.rb.work with
  | some w =>
    if k.state.running && k.active.report != 0 && k.active.report ≤ k.rb.report then done (s.emitReport c w) else .next s
  | none => .next s

end Sys2Proof.Machine
end

