-- ==== Sys2Proof/Machine/ChannelEvents.lean ====
section
/-!
DEFINITION. The other events of a channel: HALF_PERIOD_POINT, LOST_SYNC, COMMUTATION_DUE, HANDOVER, GATE_EDGE, PENDING_TURN_ON,
CAL_DONE and the fault input; and the converter's events CONVERSION_START, CONVERSION_COMPLETE and LATE.
-/

namespace Sys2Proof.Machine

/-! ### Step sequencer (R84 to R97) -/

/-- The half-period point after the one at p (R7): period time H follows period time 0, and the next period start follows it. -/
def Channel.halfAfter (k : Channel) (p : HalfPoint) (h : Nat) : Option HalfPoint :=
  if p.peak then k.nextStart.map (fun x => ⟨x.1, false⟩) else some ⟨addTicks p.time h, true⟩

/-- HALF_PERIOD_POINT (R7, R84): the channel's next half-period point; a compare that is due is applied. -/
def execHalfPeriodPoint (c : Chan) (s : State) : Host.Outcome State Fault Refusal :=
  match s.clockRuns, (s.chan c).nextHalf with
  | true, some p =>
    let t := s.waitUntil p.time
    done ((t.modCh c (fun k => { k with nextHalf := k.halfAfter p t.tb.h })).applyCompare c p.time p.peak)
  | _, _ => .next s

/-- LOST_SYNC (R97): the examination of the miss count. -/
def execLostSync (c : Chan) (s : State) : Host.Outcome State Fault Refusal := done (s.lostSyncStep c)

/-- COMMUTATION_DUE (R84): device time reaches the compare's due instant; it is marked as reached and detection closes. -/
def execCommutationDue (c : Chan) (s : State) : Host.Outcome State Fault Refusal :=
  match s.clockRuns, (s.chan c).sq.compare with
  | true, some x =>
    if x.reached then .next s
    else done ((s.waitUntil x.due).modSq c (fun q => { q with compare := some { x with reached := true } }))
  | _, _ => .next s

/-- HANDOVER (R93): a qualifying crossing at tzc that completes the count Q. -/
def execHandover (c : Chan) (tzc : Time) (s : State) : Host.Outcome State Fault Refusal :=
  let k := s.chan c
  if s.crossingPossible c tzc = true ∧ k.active.q ≤ k.sq.qualified + 1 ∧ s.inSpan c tzc = true then
    done (s.rampCrossing c tzc false)
  else .next s

/-! ### Gates (R64, R65) -/

/-- GATE_EDGE (R64): the next boundary of a phase in the current plan. -/
def execGateEdge (c : Chan) (x : Phase) (s : State) : Host.Outcome State Fault Refusal :=
  let k := s.chan c
  match s.clockRuns, k.curPlan, k.latest with
  | true, some p, some t0 =>
    match p.nextEdge s.tb.h x (k.gates.get x).edges with
    | none => .next s
    | some e =>
      let t := s.waitUntil (addTicks t0 e)
      done (t.modGates c (fun g => g.set x ((g.get x).meetEdge p k.nextPlan x t.tb.h t.tb.d t.tb.now)))
  | _, _, _ => .next s

/-- PENDING_TURN_ON (R65): a switch's pending turn-on reaches its instant. -/
def execPendingTurnOn (c : Chan) (x : Phase) (side : Side) (s : State) : Host.Outcome State Fault Refusal :=
  match s.clockRuns, ((s.chan c).gates.get x).pend side with
  | true, some u =>
    let t := s.waitUntil u
    done (t.modGates c (fun g => g.set x ((g.get x).turnOn side t.tb.now)))
  | _, _ => .next s

/-! ### Calibration (R38) -/

/-- CAL_DONE (R38): the examination of the calibration result count. -/
def execCalDone (c : Chan) (s : State) : Host.Outcome State Fault Refusal := done (s.calDoneStep c)

/-! ### Converter (R108 to R113) -/

/-- CONVERSION_START (R108): with the converter IDLE, at the first instant an entry is due, the arbiter's choice starts. -/
def execConversionStart (s : State) : Host.Outcome State Fault Refusal :=
  match s.clockRuns, s.sched.conv, s.sched.timeline with
  | true, none, first :: _ =>
    let t := if s.sched.timeline.any (·.isDue s.tb.now) then s else s.waitUntil first.due
    match arbiter (t.sched.timeline.filter (·.isDue t.tb.now)) with
    | some e => done (t.startConversion e)
    | none => .next s
  | _, _, _ => .next s

/-- CONVERSION_COMPLETE (R110): the conversion in progress completes with the raw code. -/
def execConversionComplete (raw : BitVec 12) (s : State) : Host.Outcome State Fault Refusal :=
  match s.sched.conv with
  | some v => done ((s.elapse v.left).completeConversion v raw.toNat)
  | none => .next s

/-- LATE (R113): the channel entry in a slot reaches the end of its expiry instant without having started. -/
def execLate (slot : Nat) (s : State) : Host.Outcome State Fault Refusal :=
  match s.clockRuns, s.sched.timeline.find? (·.slot == slot) with
  | true, some e =>
    match e.owner, e.expiry with
    | .chan c, some t => done ((s.waitUntil t).removeLate c e)
    | _, _ => .next s
  | _, _ => .next s

/-! ### Fault inputs (R141 to R143) -/

/-- FAULT_INPUT_ASSERTION (R142). The input goes low; the monitor takes an assertion where it watches the inputs and the kept level
was released (R141). In QUIET and start-up only the input itself changes (log 30). -/
def execFaultInputAssertion (c : Chan) (s : State) : Host.Outcome State Fault Refusal :=
  let s1 := s.modProt (fun p => { p with pins := p.pins.set c true })
  if s.clockRuns && !s.prot.levels.get c then
    done ((s1.modProt (fun p => { p with levels := p.levels.set c true })).faultAsserted c)
  else done s1

/-- FAULT_INPUT_RELEASE (R141). -/
def execFaultInputRelease (c : Chan) (s : State) : Host.Outcome State Fault Refusal :=
  let s1 := s.modProt (fun p => { p with pins := p.pins.set c false })
  if s.clockRuns then done (s1.modProt (fun p => { p with levels := p.levels.set c false })) else done s1

end Sys2Proof.Machine
end

