-- ==== Sys2Proof/Machine/DeviceRequests.lean ====
section
/-!
DEFINITION. The requests whose owner is the timebase, the link, host supervision, the scheduler or the protection monitor: IDENT,
SET_LINK, RESET, SLEEP, STATUS, RECOVER, SUPERVISE, HEARTBEAT, CARRIER, CONVERTER, AUX_PLAN, LIMITS and UNKNOWN_TYPE. An owner takes
the fields and the state and gives back the state and its answer; the link's checks and the reply are `takeRequest`.
-/

namespace Sys2Proof.Machine

def ok : Answer := { code := .ok }

def wrongState : Answer := { code := .wrongState }

/-! ### Identification, link and reset -/

/-- IDENT's owner (R16): part code, revision, reset cause, rate code in force. -/
def ownIdent (_ : Unit) (s : State) : State × Answer :=
  (s, { code := .ok, extra := le2 0x0630 ++ le1 1 ++ le1 s.tb.cause.code ++ le1 s.link.rate.code })

/-- IDENT (R16). -/
def execIdent (tag : Byte) (p : List Byte) (s : State) : Host.Outcome State Fault Refusal :=
  takeRequest 0x01 tag true (readNone p) ownIdent s

/-- SET_LINK's owner (R162): the new values travel with the reply. -/
def ownSetLink (f : Nat × Nat) (s : State) : State × Answer :=
  match rateOf f.1 with
  | none => (s, badValue 1)
  | some r =>
    if 15 < f.2 then (s, badValue 2)
    else (s, { code := .ok, extra := le1 f.1 ++ le1 f.2, effect := .setLink r f.2 })

/-- SET_LINK (R162). -/
def execSetLink (tag : Byte) (p : List Byte) (s : State) : Host.Outcome State Fault Refusal :=
  takeRequest 0x02 tag false (read11 p) ownSetLink s

/-- RESET's owner (R14): message reset is pending until the reply has left. -/
def ownReset (_ : Unit) (s : State) : State × Answer :=
  ({ s with tb := { s.tb with resetPending := true } }, { code := .ok, effect := .messageReset })

/-- RESET (R14). -/
def execReset (tag : Byte) (p : List Byte) (s : State) : Host.Outcome State Fault Refusal :=
  takeRequest 0x03 tag false (readNone p) ownReset s

/-- SLEEP's owner (R10): a second SLEEP leaves the pending entry as it was. -/
def ownSleep (_ : Unit) (s : State) : State × Answer :=
  if s.allIdle then
    if s.tb.quietPending then (s, ok)
    else ({ s with tb := { s.tb with quietPending := true } }, { code := .ok, effect := .quietEntry })
  else if s.tb.quietPending then (s, ok)
  else (s, wrongState)

/-- SLEEP (R10). -/
def execSleep (tag : Byte) (p : List Byte) (s : State) : Host.Outcome State Fault Refusal :=
  takeRequest 0x04 tag false (readNone p) ownSleep s

/-! ### STATUS (R40, R122, R178, R179) -/

/-- STATUS's owner: selector 0 names the device, 1 to 3 a channel. The reading moves only the model's counter of free values; part
0 of the device also clears the discarded-events count (R172). -/
def ownStatus (f : Nat × Nat) (s : State) : State × Answer :=
  let t : State := { s with fresh := s.fresh + 1 }
  if f.1 = 0 then
    match s.devicePart f.2 with
    | none => (s, badValue 2)
    | some b =>
      (if f.2 = 0 then t.modLink (fun l => { l with discarded := 0 }) else t, { code := .ok, extra := b })
  else
    match chanOf f.1 with
    | none => (s, badValue 1)
    | some c =>
      match s.channelPart c f.2 with
      | none => (s, badValue 2)
      | some b => (t, { code := .ok, extra := b })

/-- DEVICE_STATUS (R179). -/
def execDeviceStatus (tag : Byte) (p : List Byte) (s : State) : Host.Outcome State Fault Refusal :=
  takeRequest 0x05 tag true (read11 p) ownStatus s

/-- CHANNEL_STATUS (R40). -/
def execChannelStatus (tag : Byte) (p : List Byte) (s : State) : Host.Outcome State Fault Refusal :=
  takeRequest 0x05 tag true (read11 p) ownStatus s

/-! ### Host supervision (R152, R153, R159) -/

/-- RECOVER's owner (R159). -/
def ownRecover (_ : Unit) (s : State) : State × Answer :=
  if s.tb.dev = .locked then
    (({ s with tb := { s.tb with dev := .active } } : State).modSup
      (fun p => { p with count := 0, stage := 0, expected := none, running := true, heartbeat := none }), ok)
  else (s, wrongState)

/-- RECOVER (R159). -/
def execRecover (tag : Byte) (p : List Byte) (s : State) : Host.Outcome State Fault Refusal :=
  takeRequest 0x06 tag true (readNone p) ownRecover s

/-- SUPERVISE's owner (R152). -/
def ownSupervise (f : Nat × Nat) (s : State) : State × Answer :=
  if s.sup.enabled then (s, wrongState)
  else if 1000 < f.1 then (s, badValue 1)
  else if f.2 < 10 ∨ 2000 < f.2 then (s, badValue 2)
  else if f.2 ≤ f.1 then (s, badValue 1)
  else
    (s.modSup (fun p =>
      { p with enabled := true, tc := f.1, te := f.2, count := 0, stage := 0, expected := none, running := true }), ok)

/-- SUPERVISE (R152). -/
def execSupervise (tag : Byte) (p : List Byte) (s : State) : Host.Outcome State Fault Refusal :=
  takeRequest 0x07 tag false (read22 p) ownSupervise s

/-- HEARTBEAT's owner (R153). -/
def ownHeartbeat (n : Nat) (s : State) : State × Answer :=
  if !s.sup.enabled then (s, wrongState)
  else if s.sup.heartbeat.isSome then (s, { code := .busy })
  else (s.modSup (fun p => { p with heartbeat := some n }), ok)

/-- HEARTBEAT (R153). -/
def execHeartbeat (tag : Byte) (p : List Byte) (s : State) : Host.Outcome State Fault Refusal :=
  takeRequest 0x08 tag false (read1 p) ownHeartbeat s

/-! ### Carrier (R4, R5) -/

/-- The cross-checks of an active record against a new H and D (R4). -/
def carrierFits (r : ConfigRecord) (h d : Nat) : Bool :=
  r.offset < 2 * h && r.window ≤ h / 2 && (!r.stretch || d + r.lead ≤ r.window)

/-- The first STOPPED channel whose active record does not fit (R4). -/
def State.carrierConflict (s : State) (h d : Nat) : Option Chan :=
  Chan.all.find? (fun c => (s.chan c).state == .stopped && !carrierFits (s.chan c).active h d)

/-- CARRIER's owner (R4, R5). -/
def ownCarrier (f : Nat × Nat) (s : State) : State × Answer :=
  if f.1 < 1000 ∨ 10000 < f.1 then (s, badValue 1)
  else if 255 < f.2 then (s, badValue 2)
  else if !s.allIdle then (s, wrongState)
  else
    match s.carrierConflict f.1 f.2 with
    | some c => (s, conflict c)
    | none =>
      let t : State := { s with tb := { s.tb with h := f.1, d := f.2 } }
      let u := t.modSched (fun q => { q with aux := q.aux.map (fun a => { a with instant := a.instant % (2 * f.1) }) })
      (u.flushAll.carrierRestart, ok)

/-- CARRIER (R4, R5). -/
def execCarrier (tag : Byte) (p : List Byte) (s : State) : Host.Outcome State Fault Refusal :=
  takeRequest 0x10 tag false (read22 p) ownCarrier s

/-! ### Scheduler (R103, R118) -/

/-- CONVERTER's owner (R103). -/
def ownConverter (f : Levels) (s : State) : State × Answer :=
  if 2 < f.shunt then (s, badValue 1)
  else if 2 < f.sense then (s, badValue 2)
  else if 2 < f.aux then (s, badValue 3)
  else (s.modSched (fun q => { q with shuntLevel := f.shunt, senseLevel := f.sense, auxLevel := f.aux }), ok)

/-- CONVERTER (R103). -/
def execConverter (tag : Byte) (p : List Byte) (s : State) : Host.Outcome State Fault Refusal :=
  takeRequest 0x11 tag false (readLevels p) ownConverter s

/-- The number of the first failing field of the entries from list position i on (R118). -/
def auxFailing (h : Nat) : Nat → List AuxFields → Option Nat
  | _, [] => none
  | i, a :: as =>
    if (auxSourceOf a.source).isNone then some (2 + 3 * i)
    else if 2 * h ≤ a.instant then some (3 + 3 * i)
    else if 64 < a.divider then some (4 + 3 * i)
    else auxFailing h (i + 1) as

/-- Writes aux entries from an index upward, their wait counts 0 (R118). -/
def writeAux (plan : List AuxEntry) : Nat → List AuxFields → List AuxEntry
  | _, [] => plan
  | i, a :: as =>
    writeAux (plan.set i
      { source := (auxSourceOf a.source).getD .bus, instant := a.instant, divider := a.divider, wait := 0 }) (i + 1) as

/-- AUX_PLAN's owner (R118). -/
def ownAuxPlan (f : Nat × List AuxFields) (s : State) : State × Answer :=
  if 3 < f.1 ∨ 4 < f.1 + f.2.length then (s, badValue 1)
  else
    match auxFailing s.tb.h 0 f.2 with
    | some n => (s, badValue n)
    | none => (s.modSched (fun q => { q with aux := writeAux q.aux f.1 f.2 }), ok)

/-- AUX_PLAN (R118). -/
def execAuxPlan (tag : Byte) (p : List Byte) (s : State) : Host.Outcome State Fault Refusal :=
  takeRequest 0x12 tag false (readAuxPlan p) ownAuxPlan s

/-! ### Limits (R148) -/

/-- LIMITS's owner (R148). -/
def ownLimits (f : LimitFields) (s : State) : State × Answer :=
  if 4095 < f.busOver then (s, badValue 1)
  else if 4095 < f.busUnder then (s, badValue 2)
  else if 4095 < f.tempWarn then (s, badValue 3)
  else if 4095 < f.tempTrip then (s, badValue 4)
  else if f.busUnder ≠ 0 ∧ f.busOver ≤ f.busUnder then (s, badValue 2)
  else if f.tempTrip < f.tempWarn then (s, badValue 3)
  else
    (s.modProt (fun p =>
      { p with busOver := f.busOver, busUnder := f.busUnder, tempWarn := f.tempWarn, tempTrip := f.tempTrip }), ok)

/-- LIMITS (R148). -/
def execLimits (tag : Byte) (p : List Byte) (s : State) : Host.Outcome State Fault Refusal :=
  takeRequest 0x13 tag false (readLimits p) ownLimits s

/-! ### Unknown types (R169) -/

/-- UNKNOWN_TYPE (R169): the first of the link's checks fails. A type that names a request is not this row's. -/
def execUnknownType (type tag : Byte) (_ : List Byte) (s : State) : Host.Outcome State Fault Refusal :=
  if requestTypes.contains type || !s.canTake then .next s
  else done (s.pushReply type tag { code := .unknown })

end Sys2Proof.Machine
end

