-- ==== Sys2Proof/Machine/ChannelRequests.lean ====
section
/-!
DEFINITION. The requests that address a channel (ch.2 R18 to R36, ch.3 R42, ch.5 R77, R80): CHANNEL_SETUP, ACTIVATE, PROFILE, CALIBRATE,
START, STOP_COAST, STOP_BRAKE, VECTOR_SET, STEP_SET, CLEAR_TRIP.
-/

namespace Sys2Proof.Machine

/-! ### Configuration (R19 to R22) -/

/-- CHANNEL_SETUP's owner (R19). -/
def ownSetup (f : Nat × List (Nat × Nat)) (s : State) : State × Answer :=
  onChannel f.1 (fun c s =>
    match f.2.find? (fun x => !fieldInRange x.1 x.2) with
    | some x => (s, badValue x.1)
    | none =>
      (s.modCh c (fun k => { k with staged := f.2.foldl (fun r x => r.setField x.1 x.2) k.staged }), ok)) s

/-- CHANNEL_SETUP (R19). -/
def execChannelSetup (tag : Byte) (p : List Byte) (s : State) : Host.Outcome State Fault Refusal :=
  takeRequest 0x20 tag false (readSetup p) ownSetup s

/-- The field number of ACTIVATE's first failing cross-check (R20). -/
def activateFailing (r : ConfigRecord) (h d : Nat) : Option Nat :=
  if 2 * h ≤ r.offset then some 2
  else if h / 2 < r.window then some 4
  else if r.stretch ∧ r.window < d + r.lead then some 4
  else if r.s2 ≤ r.s1 then some 10
  else none

/-- A master period start of the pairing, so many before (negative) or after the current one. -/
def Timebase.masterAt (b : Timebase) (due : Bool) (i : Int) : Time × Seq :=
  let base := if due then b.masterNext else b.masterStart
  let seq := if due then b.masterNextSeq else b.masterSeq
  (base + BitVec.ofInt 32 (i * (2 * b.h : Nat)), seq + BitVec.ofInt 16 i)

/-- Whether the master period start before the current one exists since the carrier restart (R8). -/
def Timebase.hasPrevious (b : Timebase) (due : Bool) : Bool := if due then 1 ≤ b.masterTaken else 2 ≤ b.masterTaken

/-- A channel's next period start under an offset (R8): the first instant after now of the form "master period start m plus the
offset" whose m is later than the sequence of the latest period start. Before the first period start after a carrier restart a STOPPED
channel has none, and any m serves, as for a channel that leaves UNCONFIGURED (DEDUCED, log 18). -/
def State.nextPairing (s : State) (k : Channel) (offset : Nat) : Option (Time × Seq) :=
  let due := s.masterDue
  let idx : List Int := if s.tb.hasPrevious due then [-1, 0, 1, 2] else [0, 1, 2]
  let starts := idx.map (fun i => let x := s.tb.masterAt due i; (addTicks x.1 offset, x.2))
  starts.find? (fun x =>
    later x.1 s.tb.now && (k.latest.isNone || decide (0 < (x.2 - k.seq).toInt)))

/-- A half-period point belongs to the period that began at t: it lies at period time 0 or H (R7). -/
def HalfPoint.ofPeriod (p : HalfPoint) (t : Time) (h : Nat) : Bool := p.time == (if p.peak then addTicks t h else t)

/-- The channel's next period start has been found anew (R8). The half-period point to come stays where it belongs to the latest period
(R7), and is the new start's otherwise (log 18). -/
def Channel.rePair (k : Channel) (n : Option (Time × Seq)) (h : Nat) : Channel :=
  { k with
    nextStart := n
    nextHalf :=
      match k.nextHalf, k.latest with
      | some p, some t => if p.ofPeriod t h then some p else n.map (fun x => ⟨x.1, false⟩)
      | _, _ => n.map (fun x => ⟨x.1, false⟩) }

/-- ACTIVATE accepted in UNCONFIGURED or STOPPED (R21). -/
def State.activateIdle (s : State) (c : Chan) : State :=
  let k := s.chan c
  let moved := k.state == .unconfigured || k.active.offset != k.staged.offset
  let n := s.nextPairing k k.staged.offset
  let slot := if k.active.kind = k.staged.kind then k.slot else none
  let s1 := s.modCh c (fun x => { x with active := x.staged, live := none, slot := slot, state := .stopped })
  if moved then s1.modCh c (·.rePair n s.tb.h) else s1

/-- ACTIVATE's owner (R20 to R22). -/
def ownActivate (n : Nat) (s : State) : State × Answer :=
  onChannel n (fun c s =>
    let k := s.chan c
    if k.state = .calibrating ∨ k.state = .tripped then (s, wrongState)
    else
      match activateFailing k.staged s.tb.h s.tb.d with
      | some i => (s, badValue i)
      | none =>
        if k.state.driving then
          if k.active.sameNonLive k.staged then
            (s.modCh c (fun x => { x with live := some x.staged.liveValues }), ok)
          else (s, wrongState)
        else (s.activateIdle c, ok)) s

/-- ACTIVATE (R20). -/
def execActivate (tag : Byte) (p : List Byte) (s : State) : Host.Outcome State Fault Refusal :=
  takeRequest 0x21 tag false (read1 p) ownActivate s

/-! ### Start-up profile (R80) -/

/-- The number of the first failing field of the segments from list position i on (R80). -/
def segmentFailing : Nat → List SegmentFields → Option Nat
  | _, [] => none
  | i, g :: gs =>
    if 1 < g.kind then some (3 + 5 * i)
    else if g.t0 < 5 ∨ 10000 < g.t0 then some (5 + 5 * i)
    else if g.repeats < 1 then some (6 + 5 * i)
    else if g.t1 ≠ 0 ∧ (g.t1 < 5 ∨ 10000 < g.t1) then some (7 + 5 * i)
    else if g.t1 ≠ 0 ∧ g.kind = 0 then some (7 + 5 * i)
    else segmentFailing (i + 1) gs

def SegmentFields.segment (g : SegmentFields) : Segment where
  kind := if g.kind = 0 then .align else .ramp
  duty := g.duty
  t0 := g.t0
  repeats := g.repeats
  t1 := if g.t1 = 0 then none else some g.t1

/-- Writes segments into the places from an index upward (R80). -/
def writeSegments (profile : List (Option Segment)) : Nat → List SegmentFields → List (Option Segment)
  | _, [] => profile
  | i, g :: gs => writeSegments (profile.set i (some g.segment)) (i + 1) gs

/-- PROFILE's owner (R80). -/
def ownProfile (f : Nat × Nat × List SegmentFields) (s : State) : State × Answer :=
  onChannel f.1 (fun c s =>
    let k := s.chan c
    if k.state = .align ∨ k.state = .ramp then (s, { code := .busy })
    else if 15 < f.2.1 ∨ 16 < f.2.1 + f.2.2.length then (s, badValue 2)
    else
      match segmentFailing 0 f.2.2 with
      | some n => (s, badValue n)
      | none => (s.modSq c (fun q => { q with profile := writeSegments q.profile f.2.1 f.2.2 }), ok)) s

/-- PROFILE (R80). -/
def execProfile (tag : Byte) (p : List Byte) (s : State) : Host.Outcome State Fault Refusal :=
  takeRequest 0x22 tag false (readProfile p) ownProfile s

/-! ### Calibration (R36) -/

/-- CALIBRATE's owner (R36). -/
def ownCalibrate (n : Nat) (s : State) : State × Answer :=
  onChannel n (fun c s =>
    if (s.chan c).state ≠ .stopped then (s, wrongState)
    else if s.prot.levels.get c then (s, { code := .faultActive })
    else
      (s.modCh c (fun k => { k with state := .calibrating, calSum := 0, calResults := 0, calPeriods := 0 }), ok)) s

/-- CALIBRATE (R36). -/
def execCalibrate (tag : Byte) (p : List Byte) (s : State) : Host.Outcome State Fault Refusal :=
  takeRequest 0x23 tag false (read1 p) ownCalibrate s

/-! ### START (R24 to R26, R82, R124) -/

/-- Every profile place from one index to another holds a segment (R24). -/
def rangeFilled (profile : List (Option Segment)) (first last : Nat) : Bool :=
  (List.range 16).all (fun i => i < first || last < i || (profile.getD i none).isSome)

/-- The number of START's first failing step field (R24). -/
def startFailing (q : StepSeq) (f : StepFields) : Option Nat :=
  if 1 < f.dir then some 2
  else if 15 < f.first then some 3
  else if 15 < f.last ∨ f.last < f.first then some 4
  else if !rangeFilled q.profile f.first f.last then some 3
  else if 5 < f.index then some 5
  else none

/-- The rebuilder at an accepted START (R124). -/
def Rebuilder.started (r : Rebuilder) : Rebuilder :=
  { r with cur := invalidCurrents, curSeq := none, overCount := 0, report := 0 }

/-- An accepted START of a vector channel (R25, R41). -/
def Channel.startVector (k : Channel) : Channel :=
  { k with state := .vector, vm := { k.vm with age := 0, marker := false }, rb := k.rb.started }

/-- The sequencer at an accepted START (R82). -/
def StepSeq.started (q : StepSeq) (f : StepFields) (advance : Nat) : StepSeq :=
  { q with
    dir := if f.dir = 0 then .forward else .reverse
    first := f.first
    last := f.last
    seg := f.first
    index := f.index
    j := 0
    advance := advance
    compare := none
    lastComm := none
    lastZc := none
    prev := none
    found := false
    blanking := 0
    miss := 0
    qualified := 0 }

/-- The modulator's age and marker at an accepted START (R41), of a step channel too (log 36). -/
def VectorMod.started (v : VectorMod) : VectorMod := { v with age := 0, marker := false }

/-- An accepted START of a step channel (R26, R82). -/
def Channel.startStep (k : Channel) (f : StepFields) (kind : SegKind) : Channel :=
  { k with
    state := match kind with
      | .align => .align
      | .ramp => .ramp
    sq := k.sq.started f k.active.advance
    vm := k.vm.started
    rb := k.rb.started }

/-- START's owner (R24). -/
def ownStart (f : Nat × Option StepFields) (s : State) : State × Answer :=
  onChannel f.1 (fun c s =>
    let k := s.chan c
    if k.state ≠ .stopped then (s, wrongState)
    else
      match k.active.kind, f.2 with
      | .vector, some _ => (s, conflict c)
      | .step, none => (s, conflict c)
      | .vector, none =>
        if s.prot.levels.get c then (s, { code := .faultActive })
        else if k.slot.isNone then (s, { code := .noSetpoint })
        else (s.modCh c Channel.startVector, ok)
      | .step, some g =>
        if s.prot.levels.get c then (s, { code := .faultActive })
        else
          match startFailing k.sq g with
          | some n => (s, badValue n)
          | none => (s.modCh c (·.startStep g (s.segmentAt c g.first).kind), ok)) s

/-- START (R24). -/
def execStart (tag : Byte) (p : List Byte) (s : State) : Host.Outcome State Fault Refusal :=
  takeRequest 0x24 tag false (readStart p) ownStart s

/-! ### STOP (R27 to R29) -/

/-- STOP COAST by channel state (R27, R29). -/
def State.stopCoast (s : State) (c : Chan) : State × Answer :=
  match (s.chan c).state with
  | .stopped => (s, ok)
  | .calibrating => (s.calFailed c .aborted, ok)
  | .unconfigured => (s, wrongState)
  | .tripped => (s, wrongState)
  | .vector => (s.toStopped c, ok)
  | .align => (s.toStopped c, ok)
  | .ramp => (s.toStopped c, ok)
  | .closed => (s.toStopped c, ok)
  | .braking => (s.toStopped c, ok)

/-- The entry into BRAKING (R28, R70). -/
def State.toBraking (s : State) (c : Chan) : State :=
  ((s.endRun c).modGates c (·.bottomsOn s.tb.now s.tb.d)).modCh c (fun k => { k with state := .braking })

/-- STOP BRAKE by channel state (R28, R29). -/
def State.stopBrake (s : State) (c : Chan) : State × Answer :=
  match (s.chan c).state with
  | .stopped => (s, ok)
  | .braking => (s, ok)
  | .calibrating => (s.calFailed c .aborted, ok)
  | .unconfigured => (s, wrongState)
  | .tripped => (s, wrongState)
  | .vector => (s.toBraking c, ok)
  | .align => (s.toBraking c, ok)
  | .ramp => (s.toBraking c, ok)
  | .closed => (s.toBraking c, ok)

/-- STOP's owner: the channel, then the mode (R18, R29). -/
def ownStop (f : Nat × Nat) (s : State) : State × Answer :=
  onChannel f.1 (fun c s =>
    match f.2 with
    | 0 => s.stopCoast c
    | 1 => s.stopBrake c
    | _ => (s, badValue 2)) s

/-- STOP_COAST (R27). -/
def execStopCoast (tag : Byte) (p : List Byte) (s : State) : Host.Outcome State Fault Refusal :=
  takeRequest 0x25 tag false (read11 p) ownStop s

/-- STOP_BRAKE (R28). -/
def execStopBrake (tag : Byte) (p : List Byte) (s : State) : Host.Outcome State Fault Refusal :=
  takeRequest 0x25 tag false (read11 p) ownStop s

/-! ### Setpoints (R34, R42, R77) -/

/-- A setpoint enters the slot; one that the slot held is counted as superseded (R34). -/
def Channel.store (k : Channel) (x : Setpoint) : Channel :=
  { k with
    slot := some x
    superseded := if k.slot.isSome then min 65535 (k.superseded + 1) else k.superseded }

/-- OK or CLAMPED (R34). -/
def setpointAnswer (limited : Bool) : Answer := { code := if limited then .clamped else .ok }

/-- VECTOR_SET's owner (R42). -/
def ownVectorSet (f : VectorFields) (s : State) : State × Answer :=
  onChannel f.chan (fun c s =>
    let k := s.chan c
    if k.state = .unconfigured then (s, wrongState)
    else if k.active.kind = .step then (s, conflict c)
    else
      let amp := min maxAmp f.amp
      let rate := clampRate f.rate
      (s.modCh c (·.store (.vector amp rate (f.theta.map (· % 3072)))),
        setpointAnswer (amp != f.amp || rate != f.rate))) s

/-- VECTOR_SET (R42). -/
def execVectorSet (tag : Byte) (p : List Byte) (s : State) : Host.Outcome State Fault Refusal :=
  takeRequest 0x26 tag false (readVectorSet p) ownVectorSet s

/-- STEP_SET's owner (R77). -/
def ownStepSet (f : StepSetFields) (s : State) : State × Answer :=
  onChannel f.chan (fun c s =>
    let k := s.chan c
    if k.state = .unconfigured then (s, wrongState)
    else if k.active.kind = .vector then (s, conflict c)
    else
      let duty := min k.active.ceiling f.duty
      let adv := f.advance.map (min 31)
      (s.modCh c (·.store (.step duty adv)), setpointAnswer (duty != f.duty || adv != f.advance))) s

/-- STEP_SET (R77). -/
def execStepSet (tag : Byte) (p : List Byte) (s : State) : Host.Outcome State Fault Refusal :=
  takeRequest 0x27 tag false (readStepSet p) ownStepSet s

/-! ### CLEAR_TRIP (R31, R150) -/

/-- The channel at an accepted CLEAR_TRIP (R31, R150), less its gates. -/
def Channel.cleared (k : Channel) : Channel :=
  { k with
    state := .stopped
    trip := none
    safe := none
    slot := none
    vm := { k.vm with age := 0, marker := false }
    rb := { k.rb with overCount := 0 }
    sq := { k.sq with miss := 0, qualified := 0 } }

/-- CLEAR_TRIP's owner (R31). -/
def ownClearTrip (n : Nat) (s : State) : State × Answer :=
  onChannel n (fun c s =>
    if (s.chan c).state ≠ .tripped then (s, wrongState)
    else if s.prot.levels.get c then (s, { code := .faultActive })
    else ((s.modGates c (·.allOff s.tb.now s.tb.d)).modCh c Channel.cleared, ok)) s

/-- CLEAR_TRIP (R31). -/
def execClearTrip (tag : Byte) (p : List Byte) (s : State) : Host.Outcome State Fault Refusal :=
  takeRequest 0x28 tag false (read1 p) ownClearTrip s

end Sys2Proof.Machine
end

