-- ==== Sys2Proof/Machine/Device.lean ====
section
/-!
DEFINITION. The events of the device as a whole (ch.1): the resets and start-up, QUIET entry and the end of a wake; and the slow step
and window expiry of host supervision (ch.9).
-/

namespace Sys2Proof.Machine

/-! ### Reset (R13, R14, R15) -/

/-- Every block is in its reset state (R13). Kept are what is not the block's: the supply and the pins, the queue of commands and the
counter of free values; a message reset also keeps the link's rate and gap. The kept fault input levels are held as released until the end
of start-up (DESIGN CHOICE, log 48). -/
def State.resetBlocks (s : State) (keepLink : Bool) : State :=
  { State.reset with
    pending := s.pending
    power := s.power
    prot := { Protection.reset with pins := s.prot.pins }
    link := if keepLink then { Link.reset with rate := s.link.rate, gap := s.link.gap } else Link.reset
    fresh := s.fresh }

/-- Start-up begins if the supply is valid and RESET is high; it waits for what is missing otherwise (R13). -/
def Power.begin (p : Power) : Power :=
  { p with phase := if !p.supply then .off else if p.pinLow then .held else .startUp startUpTicks }

/-- POWER_ON_RESET (R13): the supply becomes valid, or is lost. -/
def execPowerOnReset (valid : Bool) (s : State) : Host.Outcome State Fault Refusal :=
  let t := s.resetBlocks false
  done { t with power := ({ t.power with supply := valid, supplyNew := valid || t.power.supplyNew } : Power).begin }

/-- PIN_RESET (R13): RESET goes low. Without supply only the input changes. -/
def execPinReset (s : State) : Host.Outcome State Fault Refusal :=
  let t := s.resetBlocks false
  done { t with power := ({ t.power with pinLow := true, nextCause := .pin } : Power).begin }

/-- RESET_RELEASE (R13): RESET returns high; where it was low and the supply is valid, start-up begins. -/
def execResetRelease (s : State) : Host.Outcome State Fault Refusal :=
  if s.power.pinLow then done { s with power := ({ s.power with pinLow := false } : Power).begin } else .next s

/-- The message reset (R14). -/
def State.messageResetNow (s : State) : State :=
  let t := s.resetBlocks true
  { t with power := { t.power with phase := .startUp startUpTicks, nextCause := .message } }

/-- The gap in force, in ticks (R164). -/
def Link.gapTicks (l : Link) : Nat := l.gap * l.rate.bitTicks

/-- What a start-up records as its cause (R15). -/
def Power.cause (p : Power) : Cause := if p.supplyNew then .power else p.nextCause

/-- The end of start-up (R13, R15): device time 0, ACTIVE, the cause recorded, the carrier restarted, the transmitter in GAP, the
RESET_DONE record queued, then the records of fault inputs that are asserted. -/
def State.endStartUp (s : State) : State :=
  let cause := s.power.cause
  let t : State :=
    { s with
      power := { s.power with phase := .running, supplyNew := false }
      tb := { s.tb with now := 0, dev := .active, cause := cause }
      link := { s.link with tx := .gap s.link.gapTicks } }
  (t.carrierRestart.queueEvent .resetDone none cause.code).sampleFaults

/-- START_UP_END (R15). -/
def execStartUpEnd (s : State) : Host.Outcome State Fault Refusal :=
  match s.power.phase with
  | .startUp left => done (s.elapse left).endStartUp
  | _ => .next s

/-! ### QUIET and wake (R10, R11, R12, R160, R174) -/

/-- The channel's period events stop (R11). -/
def Channel.stopPeriods (k : Channel) : Channel := { k with nextStart := none, nextHalf := none }

/-- The device enters QUIET (R11): the timeline is flushed, the carrier and what it paces stop, supervision pauses and a pending
heartbeat is discarded (R160), a frame being collected is abandoned. -/
def State.enterQuiet (s : State) : State :=
  let t := s.flushAll
  { t with
    tb := { t.tb with dev := .quiet }
    ch := t.ch.map Channel.stopPeriods
    sup := { t.sup with running := false, heartbeat := none }
    link := { t.link with rx := [], rxLeft := 0 } }

/-- The pending entry at the departure of its reply (R10): entered if the conditions still hold and no supervision trip has abandoned
it (R157). A channel that a START or CALIBRATE had running in between and that is idle again does not count against it (DEDUCED,
log 39). -/
def State.quietEntryNow (s : State) : State :=
  let t : State := { s with tb := { s.tb with quietPending := false, quietDropped := false } }
  if s.tb.quietDropped = false ∧ s.tb.dev = .active ∧ s.allIdle = true then t.enterQuiet else t

/-- Supervision at the completion of a wake (R160). -/
def Supervision.wake (p : Supervision) : Supervision :=
  if p.enabled then { p with count := 0, stage := 0, expected := none, running := true } else p

/-- The transmitter at the completion of a wake: one that is not SENDING is ready (R174, log 13, log 32). -/
def State.transmitAgain (s : State) : State :=
  match s.link.tx with
  | .sending _ _ _ => s
  | _ => s.ready

/-- The completion of a wake (R12). The transmitter begins the oldest frame before the levels of the fault inputs are taken, so that a
TRIP record of an asserted input does not move behind that frame at this instant (DEDUCED, log 49). -/
def State.wakeNow (s : State) : State :=
  let t : State := { s with tb := { s.tb with dev := .active, wakeLeft := none }, sup := s.sup.wake }
  t.transmitAgain.carrierRestart.sampleFaults

/-- WAKE_COMPLETE (R12). -/
def execWakeComplete (s : State) : Host.Outcome State Fault Refusal :=
  match s.isRunning, s.tb.wakeLeft with
  | true, some left => done (s.elapse left).wakeNow
  | _, _ => .next s

/-! ### The end of a frame (R164) -/

/-- The transmitter enters GAP; with a gap of 0 it is ready at once (R164, log 27). -/
def State.enterGap (s : State) : State :=
  if s.link.gap = 0 then s.ready else s.modLink (fun l => { l with tx := .gap l.gapTicks })

/-- A rate and a gap come into force (R162): a frame being collected is abandoned without an event. -/
def State.linkInForce (s : State) (r : Rate) (gap : Nat) : State :=
  s.modLink (fun l => { l with rate := r, gap := gap, rx := [], rxLeft := 0 })

/-- The stop bit of the frame's last character has ended: what its departure brings, and the gap (R10, R14, R162, R164). -/
def State.frameGone (s : State) (e : ReplyEffect) : State :=
  match e with
  | .nothing => s.enterGap
  | .messageReset => s.messageResetNow
  | .quietEntry => s.quietEntryNow.enterGap
  | .setLink r gap => (s.linkInForce r gap).enterGap

/-- FRAME_SENT (R164). -/
def execFrameSent (s : State) : Host.Outcome State Fault Refusal :=
  match s.link.tx with
  | .sending _ e left => done ((s.elapse left).frameGone e)
  | _ => .next s

/-- SET_LINK_IN_FORCE (R162): the end of a SET_LINK reply. -/
def execSetLinkInForce (s : State) : Host.Outcome State Fault Refusal :=
  match s.link.tx with
  | .sending _ (.setLink r gap) left => done (((s.elapse left).linkInForce r gap).enterGap)
  | _ => .next s

/-- MESSAGE_RESET (R14): the end of a RESET reply. -/
def execMessageReset (s : State) : Host.Outcome State Fault Refusal :=
  match s.link.tx with
  | .sending _ .messageReset left => done (s.elapse left).messageResetNow
  | _ => .next s

/-- QUIET_ENTRY (R10, R11): the end of the SLEEP reply. -/
def execQuietEntry (s : State) : Host.Outcome State Fault Refusal :=
  match s.link.tx with
  | .sending _ .quietEntry left => done ((s.elapse left).quietEntryNow.enterGap)
  | _ => .next s

/-- GAP_END (R164): the transmitter is ready. -/
def execGapEnd (s : State) : Host.Outcome State Fault Refusal :=
  match s.link.tx with
  | .gap left => done (s.elapse left).ready
  | _ => .next s

/-! ### Host supervision (R154, R156) -/

/-- SLOW_STEP (R154). -/
def execSlowStep (s : State) : Host.Outcome State Fault Refusal :=
  if s.sup.enabled && s.sup.running then done s.slowStep else .next s

/-- WINDOW_EXPIRY (R156): the examination of the window count against Te. -/
def execWindowExpiry (s : State) : Host.Outcome State Fault Refusal :=
  if s.sup.enabled then done s.expiryStep else .next s

end Sys2Proof.Machine
end

