-- ==== Sys2Proof/Machine/LinkEvents.lean ====
section
/-!
DEFINITION. The receiver (ch.10 10.3): CHARACTER_ARRIVAL and FRAME_TIMEOUT.
-/

namespace Sys2Proof.Machine

/-- Details of LINK_ERROR (Table 11-6). -/
inductive LinkFailure where
  | crc | framing | timeout | overrun | length
deriving DecidableEq, Repr

def LinkFailure.code : LinkFailure → Nat
  | .crc => 0
  | .framing => 1
  | .timeout => 2
  | .overrun => 3
  | .length => 4

/-- What the receiver makes of the characters of a frame, its marker first (R165, R167). -/
inductive Collected where
  /-- The frame is not complete. -/
  | incomplete
  | failed (f : LinkFailure)
  | valid (f : Frame)
deriving DecidableEq, Repr

/-- Longest payload (R163). -/
def payloadRoom : Nat := 56

/-- The examination of the kept characters (R165, R167), from the length on. -/
def collected : List Byte → Collected
  | [] => .incomplete
  | len :: body =>
    let n := len.toNat
    if payloadRoom < n then .failed .length
    else
      match body with
      | type :: tag :: rest =>
        match rest[n]? with
        | none => .incomplete
        | some check =>
          let payload := rest.take n
          if crc (len :: type :: tag :: payload) = check then .valid { type := type, tag := tag, payload := payload }
          else .failed .crc
      | _ => .incomplete

/-- What happens at the receiver in one arrival or rescan. -/
inductive RxItem where
  | error (f : LinkFailure)
  | frame (f : Frame)
deriving DecidableEq, Repr

/-- The receiver examines characters from HUNTING on, in order (R165, R166): the happenings, and the kept characters of the frame
it is left collecting. A failed frame is rescanned from the character after its marker; `skip` counts the characters of a valid
frame still to be passed. -/
def scan : Nat → List Byte → List RxItem × List Byte
  | _, [] => ([], [])
  | skip + 1, _ :: cs => scan skip cs
  | 0, c :: cs =>
    if c = marker then
      match collected cs with
      | .incomplete => ([], c :: cs)
      | .failed f => let r := scan 0 cs; (.error f :: r.1, r.2)
      | .valid f => let r := scan (4 + f.payload.length) cs; (.frame f :: r.1, r.2)
    else scan 0 cs

/-- Size of the receive buffer (R168). -/
def rxRoom : Nat := 2

/-- A LINK_ERROR record (R165, R166, R168). -/
def State.linkError (s : State) (f : LinkFailure) : State := s.queueEvent .linkError none f.code

/-- A failure is recorded, and a valid frame enters the receive buffer or is discarded with OVERRUN (R168). -/
def State.rxItem (s : State) (x : RxItem) : State :=
  match x with
  | .error f => s.linkError f
  | .frame f =>
    if s.link.rxBuf.length < rxRoom then s.modLink (fun l => { l with rxBuf := l.rxBuf ++ [f] })
    else s.linkError .overrun

/-- Ticks of the timeout: 40 bit times (R166). -/
def Link.timeoutTicks (l : Link) : Nat := 40 * l.rate.bitTicks

/-- The receiver examines characters, and is left with `left` ticks of timeout if it is COLLECTING. -/
def State.receive (s : State) (cs : List Byte) (left : Nat) : State :=
  let r := scan 0 cs
  (r.1.foldl State.rxItem s).modLink (fun l => { l with rx := r.2, rxLeft := if r.2.isEmpty then 0 else left })

/-- Ticks of a wake, 200 µs (R12). -/
def wakeTicks : Nat := 16000

/-- A start marker received while HUNTING in QUIET begins a wake (R12). -/
def State.wakeBegins (s : State) (char : Byte) : State :=
  if s.tb.dev = .quiet ∧ s.tb.wakeLeft = none ∧ s.link.rx = [] ∧ char = marker then
    { s with tb := { s.tb with wakeLeft := some wakeTicks } }
  else s

/-- CHARACTER_ARRIVAL (R165, R166): ignored in reset and start-up (R13). -/
def execCharacterArrival (char : Byte) (framingError : Bool) (s : State) : Host.Outcome State Fault Refusal :=
  if s.isRunning then
    if framingError then
      if s.link.rx.isEmpty then .next s
      else done ((s.linkError .framing).receive s.link.rx.tail s.link.timeoutTicks)
    else done ((s.wakeBegins char).receive (s.link.rx ++ [char]) s.link.timeoutTicks)
  else .next s

/-- FRAME_TIMEOUT (R166): the timeout of the frame being collected passes. A frame that the rescan begins has its timeout counted from
the same character, so it has passed too. -/
def execFrameTimeout (s : State) : Host.Outcome State Fault Refusal :=
  if s.isRunning && !s.link.rx.isEmpty then
    let t := s.elapse s.link.rxLeft
    done ((t.linkError .timeout).receive s.link.rx.tail 0)
  else .next s

end Sys2Proof.Machine
end

