-- ==== Sys2Proof/Machine/Idle.lean ====
section
/-!
DEFINITION. What the block does by itself while no command waits (log 1): an event that is due at the present instant becomes the next
command; where none is, one tick passes. What comes from outside (characters, pins, supply, slow steps) is never raised here.
-/

namespace Sys2Proof.Machine

/-- A list of one command, if a condition holds. -/
def raiseIf (b : Bool) (i : Instr) : List Instr := if b then [i] else []

/-- An instant that may be absent has been reached. -/
def reachedBy (now : Time) (t : Option Time) : Bool :=
  match t with
  | some x => notBefore now x
  | none => false

/-- The next boundary of a phase in the current plan has been reached (R64). -/
def Channel.edgeDue (k : Channel) (now : Time) (h : Nat) (x : Phase) : Bool :=
  match k.curPlan, k.latest with
  | some p, some t0 => reachedBy now ((p.nextEdge h x (k.gates.get x).edges).map (addTicks t0))
  | _, _ => false

/-- The events of a phase of a channel that are due. -/
def Channel.phaseDue (k : Channel) (c : Chan) (now : Time) (h : Nat) (x : Phase) : List Instr :=
  raiseIf (k.edgeDue now h x) (.gateEdge c x) ++
    raiseIf (reachedBy now ((k.gates.get x).pend .top)) (.pendingTurnOn c x .top) ++
    raiseIf (reachedBy now ((k.gates.get x).pend .bottom)) (.pendingTurnOn c x .bottom)

/-- The commutation compare is due and not yet marked as reached (R84). -/
def Channel.compareDue (k : Channel) (now : Time) : Bool :=
  match k.sq.compare with
  | some x => !x.reached && notBefore now x.due
  | none => false

/-- The events of a channel that are due. -/
def Channel.due (k : Channel) (c : Chan) (now : Time) (h : Nat) : List Instr :=
  raiseIf (reachedBy now (k.nextStart.map (·.1))) (.channelPeriodStart c) ++
    raiseIf (reachedBy now (k.nextHalf.map (·.time))) (.halfPeriodPoint c) ++
    raiseIf (k.compareDue now) (.commutationDue c) ++
    Phase.all.flatMap (k.phaseDue c now h)

/-- The events of the timing clock that are due (R2, R6, R7, R64, R65, R84, R108). -/
def State.clockDue (s : State) : List Instr :=
  if s.clockRuns then
    raiseIf s.masterDue .masterPeriodStart ++
      Chan.all.flatMap (fun c => (s.chan c).due c s.tb.now s.tb.h) ++
      raiseIf (s.sched.conv.isNone && s.sched.timeline.any (·.isDue s.tb.now)) .conversionStart
  else []

/-- The row that the end of a frame is (R10, R14, R162, R164). -/
def ReplyEffect.row : ReplyEffect → Instr
  | .nothing => .frameSent
  | .messageReset => .messageReset
  | .quietEntry => .quietEntry
  | .setLink _ _ => .setLinkInForce

/-- The transmitter's event that is due (R164). -/
def Transmitter.due (t : Transmitter) : List Instr :=
  match t with
  | .sending _ e left => raiseIf (left == 0) e.row
  | .gap left => raiseIf (left == 0) .gapEnd
  | .idle => []

/-- The converter's completion that is due (R110); the raw code is the analog input's (log 10). -/
def State.conversionDue (s : State) : List Instr :=
  match s.sched.conv with
  | some v => raiseIf (v.left == 0) (.conversionComplete (Config.freeRaw s.fresh))
  | none => []

/-- The end of start-up or of a wake that is due (R12, R13). -/
def State.wakeDue (s : State) : List Instr :=
  (match s.power.phase with
    | .startUp left => raiseIf (left == 0) .startUpEnd
    | _ => []) ++
  (match s.tb.wakeLeft with
    | some left => raiseIf (s.isRunning && left == 0) .wakeComplete
    | none => [])

/-- The taking of the oldest frame of the receive buffer, where it can be taken (R169). -/
def State.takingDue (s : State) : List Instr :=
  match s.link.rxBuf with
  | f :: _ => raiseIf s.canTake f.instr
  | [] => []

/-- Every event that is due at the present instant, the takings of frames and the ends of expiry instants apart. -/
def State.due (s : State) : List Instr :=
  s.clockDue ++ s.conversionDue ++ s.link.tx.due ++
    raiseIf (s.isRunning && !s.link.rx.isEmpty && s.link.rxLeft == 0) .frameTimeout ++ s.wakeDue

/-- Entries of channels whose expiry instant ends (R113). -/
def State.expiring (s : State) : List Instr :=
  if s.clockRuns then
    (s.sched.timeline.filter (fun e => reachedBy s.tb.now e.expiry)).map (fun e => .late e.slot)
  else []

/-- The command becomes the next one; a taken frame leaves the receive buffer with its taking. -/
def State.raise (s : State) (i : Instr) (fromBuffer : Bool) : State :=
  let t := if fromBuffer then s.modLink (fun l => { l with rxBuf := l.rxBuf.tail }) else s
  { t with pending := t.pending ++ [i], fresh := t.fresh + 1 }

/-- One of the commands of a list, drawn by a free value (log 4), with its place in the list. -/
def drawn (n : Nat) (is : List Instr) : Option (Nat × Instr) :=
  let k := Config.freeOrder n % is.length
  is[k]?.map (fun i => (k, i))

/-- The period start of a channel goes after others of the instant (R170): where it hands over a report, those of lower channels that do
so go first, and with the outbound queue full the transmitter, which may free a place. -/
def State.closeWaits (s : State) (c : Chan) : Bool :=
  s.reportsNow c &&
    (Chan.all.any (fun x => chanCode x < chanCode c && s.reportsNow x) ||
      (outRoom ≤ s.link.out.length && !s.link.tx.due.isEmpty))

/-- A period start, of the carrier or of a channel, is due. -/
def State.periodStartDue (s : State) : Bool :=
  s.masterDue || Chan.all.any (fun c => reachedBy s.tb.now ((s.chan c).nextStart.map (·.1)))

/-- A due event that another of the same instant goes before: a conversion start follows every insertion of its instant (R105, R108,
R117), and R170 orders the closes that report. -/
def State.waits (s : State) (i : Instr) : Bool :=
  match i with
  | .conversionStart => s.periodStartDue
  | .channelPeriodStart c => s.closeWaits c
  | _ => false

/-- The due events of which one may be next. -/
def State.nextEvents (s : State) : List Instr := s.due.filter (fun i => !s.waits i)

/-- The taking that may be next: a report of the instant goes before it (R169, R170). -/
def State.nextTaking (s : State) : List Instr := if Chan.all.any s.reportsNow then [] else s.takingDue

/-- The idle step (log 1): an event or taking that is due is raised, in an order that the rules leave open (log 4); with none due an
expiry instant ends; with none of these one tick passes. -/
def State.idle (s : State) : State :=
  let evs := s.nextEvents
  match drawn s.fresh (evs ++ s.nextTaking) with
  | some (k, i) => s.raise i (evs.length ≤ k)
  | none =>
    match drawn s.fresh s.expiring with
    | some (_, i) => s.raise i false
    | none => s.elapse 1

end Sys2Proof.Machine
end

