-- ==== Sys2Proof/Machine/Dispatch.lean ====
section
/-!
DEFINITION. The meaning of every command: one arm per constructor of Instr.
-/

namespace Sys2Proof.Machine

def exec (i : Instr) (s : State) : Host.Outcome State Fault Refusal :=
  match i with
  | .ident tag payload => Sys2Proof.Machine.execIdent tag payload s
  | .setLink tag payload => Sys2Proof.Machine.execSetLink tag payload s
  | .setLinkInForce => Sys2Proof.Machine.execSetLinkInForce s
  | .reset tag payload => Sys2Proof.Machine.execReset tag payload s
  | .messageReset => Sys2Proof.Machine.execMessageReset s
  | .sleep tag payload => Sys2Proof.Machine.execSleep tag payload s
  | .quietEntry => Sys2Proof.Machine.execQuietEntry s
  | .deviceStatus tag payload => Sys2Proof.Machine.execDeviceStatus tag payload s
  | .channelStatus tag payload => Sys2Proof.Machine.execChannelStatus tag payload s
  | .recover tag payload => Sys2Proof.Machine.execRecover tag payload s
  | .supervise tag payload => Sys2Proof.Machine.execSupervise tag payload s
  | .heartbeat tag payload => Sys2Proof.Machine.execHeartbeat tag payload s
  | .carrier tag payload => Sys2Proof.Machine.execCarrier tag payload s
  | .converter tag payload => Sys2Proof.Machine.execConverter tag payload s
  | .auxPlan tag payload => Sys2Proof.Machine.execAuxPlan tag payload s
  | .limits tag payload => Sys2Proof.Machine.execLimits tag payload s
  | .channelSetup tag payload => Sys2Proof.Machine.execChannelSetup tag payload s
  | .activate tag payload => Sys2Proof.Machine.execActivate tag payload s
  | .profile tag payload => Sys2Proof.Machine.execProfile tag payload s
  | .calibrate tag payload => Sys2Proof.Machine.execCalibrate tag payload s
  | .start tag payload => Sys2Proof.Machine.execStart tag payload s
  | .stopCoast tag payload => Sys2Proof.Machine.execStopCoast tag payload s
  | .stopBrake tag payload => Sys2Proof.Machine.execStopBrake tag payload s
  | .vectorSet tag payload => Sys2Proof.Machine.execVectorSet tag payload s
  | .stepSet tag payload => Sys2Proof.Machine.execStepSet tag payload s
  | .clearTrip tag payload => Sys2Proof.Machine.execClearTrip tag payload s
  | .unknownType type tag payload => Sys2Proof.Machine.execUnknownType type tag payload s
  | .powerOnReset valid => Sys2Proof.Machine.execPowerOnReset valid s
  | .pinReset => Sys2Proof.Machine.execPinReset s
  | .startUpEnd => Sys2Proof.Machine.execStartUpEnd s
  | .masterPeriodStart => Sys2Proof.Machine.execMasterPeriodStart s
  | .busStale => Sys2Proof.Machine.execBusStale s
  | .channelPeriodStart c => Sys2Proof.Machine.execChannelPeriodStart c s
  | .stale c => Sys2Proof.Machine.execStale c s
  | .staleTrip c => Sys2Proof.Machine.execStaleTrip c s
  | .calTimeout c => Sys2Proof.Machine.execCalTimeout c s
  | .halfPeriodPoint c => Sys2Proof.Machine.execHalfPeriodPoint c s
  | .lostSync c => Sys2Proof.Machine.execLostSync c s
  | .commutationDue c => Sys2Proof.Machine.execCommutationDue c s
  | .gateEdge c x => Sys2Proof.Machine.execGateEdge c x s
  | .pendingTurnOn c x side => Sys2Proof.Machine.execPendingTurnOn c x side s
  | .conversionStart => Sys2Proof.Machine.execConversionStart s
  | .conversionComplete raw => Sys2Proof.Machine.execConversionComplete raw s
  | .calDone c => Sys2Proof.Machine.execCalDone c s
  | .handover c tzc => Sys2Proof.Machine.execHandover c tzc s
  | .late slot => Sys2Proof.Machine.execLate slot s
  | .currentLimit c => Sys2Proof.Machine.execCurrentLimit c s
  | .periodReport c => Sys2Proof.Machine.execPeriodReport c s
  | .faultInputAssertion c => Sys2Proof.Machine.execFaultInputAssertion c s
  | .faultInputRelease c => Sys2Proof.Machine.execFaultInputRelease c s
  | .slowStep => Sys2Proof.Machine.execSlowStep s
  | .windowExpiry => Sys2Proof.Machine.execWindowExpiry s
  | .characterArrival char framingError => Sys2Proof.Machine.execCharacterArrival char framingError s
  | .wakeComplete => Sys2Proof.Machine.execWakeComplete s
  | .frameTimeout => Sys2Proof.Machine.execFrameTimeout s
  | .frameSent => Sys2Proof.Machine.execFrameSent s
  | .gapEnd => Sys2Proof.Machine.execGapEnd s
  | .resetRelease => Sys2Proof.Machine.execResetRelease s

end Sys2Proof.Machine
end

