-- ==== Sys2Proof/Safety.lean ====
section
/-!
DEFINITION. What counts as a sound state of the block, in the terms the statements use: invariants that every step keeps, the lengths a
request may have, and the shapes that the statements about requests share.
-/

namespace Sys2Proof.Machine

/-! ### Invariants -/

/-- The two switches of a phase are never on together (R65). -/
def State.gatesApart (s : State) : Prop :=
  ∀ c x, ¬((((s.chan c).gates.get x).top = true) ∧ ((s.chan c).gates.get x).bottom = true)

/-- The identity of the sample counters, modulo 2^32 (R121). -/
def State.countersAgree (s : State) : Prop :=
  ∀ c, (s.chan c).requested =
    (s.chan c).converted + (s.chan c).late + (s.chan c).flushed + BitVec.ofNat 32 (s.sched.outstanding c)

/-- The timeline holds at most one entry for a slot (R104). -/
def State.oneEntryPerSlot (s : State) : Prop := (s.sched.timeline.map (·.slot)).Nodup

/-- The event queue holds at most 16 records, no two of the same code and channel (R172). -/
def Link.eventsBounded (l : Link) : Prop :=
  l.events.length ≤ 16 ∧ (l.events.map (fun r => (r.code, r.chan))).Nodup

/-- The outbound queue holds at most 24 frames, at most one report of each channel (R170); the receive buffer at most two frames
(R168). -/
def Link.framesBounded (l : Link) : Prop :=
  l.out.length ≤ 24 ∧ (∀ c, l.out.countP (·.isReport c) ≤ 1) ∧ l.rxBuf.length ≤ 2

def State.queuesBounded (s : State) : Prop := s.link.eventsBounded ∧ s.link.framesBounded

/-- ATTN has the level its conditions give (R149). -/
def State.attnRight (s : State) : Prop := s.attn = s.attnLevel

/-- While the device is LOCKED or QUIET no channel drives its gates or calibrates (R157). -/
def State.restrained (s : State) : Prop :=
  s.tb.dev ≠ .active → ∀ c, (s.chan c).state.driving = false ∧ (s.chan c).state ≠ .calibrating

/-- The carrier, class levels and limits lie in their ranges (R3, ch.6 table, ch.8 table). -/
def State.settingsInRange (s : State) : Prop :=
  (1000 ≤ s.tb.h ∧ s.tb.h ≤ 10000 ∧ s.tb.d ≤ 255) ∧
    (s.sched.shuntLevel ≤ 2 ∧ s.sched.senseLevel ≤ 2 ∧ s.sched.auxLevel ≤ 2) ∧
    (s.prot.busOver ≤ 4095 ∧ s.prot.busUnder ≤ 4095 ∧ s.prot.tempWarn ≤ 4095 ∧ s.prot.tempTrip ≤ 4095)

/-- The aux plan has four entries, each with an instant within the master period, a divider of at most 64 and a wait count of at
most 63 (R116). -/
def State.auxPlanInRange (s : State) : Prop :=
  1 ≤ s.tb.h ∧ s.sched.aux.length = 4 ∧ ∀ a ∈ s.sched.aux, a.instant < 2 * s.tb.h ∧ a.divider ≤ 64 ∧ a.wait ≤ 63

/-- Supervision's values lie in their ranges (ch.9 table). -/
def State.supervisionInRange (s : State) : Prop :=
  s.sup.tc ≤ 1000 ∧ s.sup.tc < s.sup.te ∧ 10 ≤ s.sup.te ∧ s.sup.te ≤ 2000 ∧ s.sup.count ≤ 2000 ∧ s.sup.stage ≤ 1 ∧
    (∀ n, s.sup.expected = some n → n ≤ 255) ∧ (∀ n, s.sup.heartbeat = some n → n ≤ 255)

/-- A vector setpoint within its limits (R42). -/
def Setpoint.inRange : Setpoint → Prop
  | .vector a w t => a ≤ 37837 ∧ -33554432 ≤ w ∧ w ≤ 33554432 ∧ ∀ n, t = some n → n ≤ 3071
  | .step _ _ => True

/-- A vector modulator within its ranges (ch.3 table, R45). -/
def VectorMod.inRange (v : VectorMod) : Prop :=
  v.amp ≤ 37837 ∧ -33554432 ≤ v.rate ∧ v.rate ≤ 33554432 ∧ v.acc ≤ 201326591 ∧ v.age ≤ 4095

def State.vectorsInRange (s : State) : Prop :=
  ∀ c, (s.chan c).vm.inRange ∧ ∀ p, (s.chan c).slot = some p → p.inRange

/-- What a channel's gates and plans are in its state (R23, R137): all off without plans in UNCONFIGURED and STOPPED, all off under
calibration plans in CALIBRATING, tops off without plans in BRAKING and TRIPPED and all off with OPEN in force. -/
def Channel.gatesFit (k : Channel) : Prop :=
  let off := ∀ x, (k.gates.get x).top = false ∧ (k.gates.get x).bottom = false ∧ (k.gates.get x).topPend = none ∧
    (k.gates.get x).bottomPend = none
  let topsOff := ∀ x, (k.gates.get x).top = false ∧ (k.gates.get x).topPend = none
  let noPlan := k.curPlan = none ∧ k.nextPlan = none
  match k.state with
  | .unconfigured => off ∧ noPlan
  | .stopped => off ∧ noPlan
  | .calibrating =>
    off ∧ (∀ p, k.curPlan = some p → p.body = .cal) ∧ (∀ p, k.nextPlan = some p → p.body = .cal)
  | .braking => topsOff ∧ noPlan
  | .tripped => topsOff ∧ noPlan ∧ (k.safe = some .openAll → off)
  | .vector => True
  | .align => True
  | .ramp => True
  | .closed => True

/-- The gates and plans fit the channel state, and a trip record and a safe state in force stand exactly in TRIPPED (R137, R140). -/
def State.channelsFit (s : State) : Prop :=
  ∀ c, (s.chan c).gatesFit ∧ ((s.chan c).safe.isSome = true ↔ (s.chan c).state = .tripped) ∧
    ((s.chan c).trip.isSome = true ↔ (s.chan c).state = .tripped)

/-! ### Requests -/

/-- Commands that can reset the block (R13, R14). -/
def resetRow : Instr → Bool
  | .powerOnReset _ => true
  | .pinReset => true
  | .messageReset => true
  | .frameSent => true
  | _ => false

/-- A request may be taken and is not stopped by LOCKED (R158, R169). -/
def State.takes (s : State) : Prop := s.canTake = true ∧ s.tb.dev ≠ .locked

/-- The state in which a request of a type is answered: the reply at the tail of the outbound queue, the step ended. -/
def State.replied (u : State) (type tag : Byte) (a : Answer) : State := (u.pushReply type tag a).settle

/-- The channel field of a channel. -/
def chanByte (c : Chan) : Byte := byte (chanCode c)

/-- The types that are taken in LOCKED: IDENT, STATUS and RECOVER (R158). -/
def passedInLocked (type : Byte) : Bool := type == 0x01 || type == 0x05 || type == 0x06

/-- The payload lengths of Table 11-2. -/
def validLength (type : Byte) (n : Nat) : Bool :=
  match type.toNat with
  | 0x01 => n == 0
  | 0x02 => n == 2
  | 0x03 => n == 0
  | 0x04 => n == 0
  | 0x05 => n == 2
  | 0x06 => n == 0
  | 0x07 => n == 4
  | 0x08 => n == 1
  | 0x10 => n == 4
  | 0x11 => n == 3
  | 0x12 => [5, 9, 13, 17].contains n
  | 0x13 => n == 8
  | 0x20 => [4, 7, 10, 13, 16, 19, 22, 25, 28, 31, 34, 37].contains n
  | 0x21 => n == 1
  | 0x22 => [10, 18, 26, 34].contains n
  | 0x23 => n == 1
  | 0x24 => [1, 5].contains n
  | 0x25 => n == 2
  | 0x26 => [7, 9].contains n
  | 0x27 => [3, 4].contains n
  | 0x28 => n == 1
  | _ => false

/-- From s to u the next plan of a channel has become current at t (R32): with the step index in use (R68), its requests in the timeline
and counted where their slots are free (R74, R105, R106), and its working record begun, none for a calibration plan (R125). Where there
is no next plan, none is current. -/
def State.plansMoved (s u : State) (c : Chan) (t : Time) : Prop :=
  match (s.chan c).nextPlan with
  | none => (u.chan c).curPlan = none ∧ u.sched = s.sched ∧ (u.chan c).requested = (s.chan c).requested
  | some n =>
    let p := n.withIndex (s.chan c).sq.index
    let entry := fun (r : PlanRequest) =>
      ({ slot := slotOf c r.purpose, owner := .chan c, purpose := r.purpose, due := addTicks t r.due, tol := some r.tol,
         level := s.sched.level (slotOf c r.purpose), seq := n.seq, merged := none } : Entry)
    let place := fun (ps : List Purpose) => if ∃ r ∈ n.requests, r.purpose ∈ ps then Place.waiting else .notPlaced
    (u.chan c).curPlan = some p ∧
      (u.chan c).rb.work =
        (if n.body = .cal then none
         else some { plan := p, start := t, placeA := place [.shuntA], placeB := place [.shuntB, .sense], sampled := none }) ∧
      u.sched.conv = s.sched.conv ∧
      ((n.requests.map (fun r => slotOf c r.purpose)).Nodup →
        (∀ r ∈ n.requests, ∀ e ∈ s.sched.timeline, e.slot ≠ slotOf c r.purpose) →
        (∀ r ∈ n.requests, entry r ∈ u.sched.timeline) ∧ (∀ e ∈ s.sched.timeline, e ∈ u.sched.timeline) ∧
          u.sched.timeline.length = s.sched.timeline.length + n.requests.length ∧
          (u.chan c).requested = (s.chan c).requested + BitVec.ofNat 32 n.requests.length)

/-! ### Gates -/

/-- From a to b a phase meets the next boundary of a top interval with compare value C and down-compare dn, `next` being the plan that
follows (R63, R64, R67). Its beginning: nothing happens where the interval has D ticks or less or the top is on; else the bottom turns off
and the top waits for D. Its end: nothing happens where it was absorbed or no more than D ticks lead to the next interval that is not;
else the top turns off and, where the plan drives it, the bottom waits for D. -/
def PhaseGate.boundaryMet (a b : PhaseGate) (h d dn c : Nat) (bottomToo : Bool) (next : Option Plan) (x : Phase) (now : Time) :
    Prop :=
  let absorbed := 2 * h - 2 * c ≤ d
  let gap := ∃ n, next = some n ∧
    ((∃ v, n.body = .vector v ∧ d < 2 * h - 2 * (v.cmp.get x).c ∧ dn + v.up.get x ≤ d) ∨
      ∃ t, n.body = .step t ∧ d < 2 * h - 2 * t.cmp.c ∧ dn + t.cmp.c ≤ d)
  (a.edges = 0 → absorbed ∨ a.top = true → b = { a with edges := 1 }) ∧
  (a.edges = 0 → ¬absorbed → a.top = false →
    b =
      { a with
        edges := 1
        bottom := false
        bottomOff := if a.bottom then some { time := now, d := d } else a.bottomOff
        bottomPend := none
        topPend := some (addTicks now d) }) ∧
  (a.edges = 1 → absorbed ∨ gap → b = { a with edges := 2 }) ∧
  (a.edges = 1 → ¬absorbed → ¬gap →
    b =
      { a with
        edges := 2
        top := false
        topOff := if a.top then some { time := now, d := d } else a.topOff
        topPend := none
        bottomPend := if bottomToo = true ∧ a.bottom = false then some (addTicks now d) else a.bottomPend }) ∧
  (2 ≤ a.edges → b = a)

/-- From a to b a phase meets its next boundary in a plan (R63, R67): every phase of a vector plan has one, and the high phase of a step
plan, whose bottom stays off. -/
def Plan.edgeMet (p : Plan) (next : Option Plan) (x : Phase) (h d : Nat) (now : Time) (a b : PhaseGate) : Prop :=
  match p.body with
  | .vector v => a.boundaryMet b h d (v.dn.get x) (v.cmp.get x).c true next x now
  | .step t => if x = highPhase t.index then a.boundaryMet b h d t.cmp.c t.cmp.c false next x now else b = a
  | .cal => b = a

/-- From s to u the gates of a channel meet the plan that becomes current (R63, R67). With none before it, the first bottom intervals of a
vector plan begin, but for one of D ticks or less, and the low bottom of a step plan waits for D. After another plan, what is left of that
plan's boundaries is met (log 17), and a new low bottom waits for D. -/
def State.gatesMoved (s u : State) (c : Chan) : Prop :=
  let k := s.chan c
  let now := s.tb.now
  let h := s.tb.h
  let d := s.tb.d
  let waits := fun (g : PhaseGate) => if g.bottom then g else { g with bottomPend := some (addTicks now d) }
  match k.nextPlan, k.curPlan with
  | none, _ => (u.chan c).gates = k.gates
  | some n, none =>
    ∀ x,
      let a := { k.gates.get x with edges := 0 }
      let b := (u.chan c).gates.get x
      (∀ v, n.body = .vector v →
        b = (if d < 2 * h - 2 * (v.cmp.get x).c ∧ v.up.get x ≤ d then a else waits a)) ∧
      (∀ t, n.body = .step t → b = (if x = lowPhase k.sq.index then waits a else a)) ∧
      (n.body = .cal → b = a)
  | some n, some o =>
    ∀ x, ∃ g1 g2,
      o.edgeMet (some n) x h d now (k.gates.get x) g1 ∧ o.edgeMet (some n) x h d now g1 g2 ∧
        let g := { g2 with edges := 0 }
        let low := (∃ t, n.body = .step t) ∧ x = lowPhase k.sq.index ∧ g.bottomPend = none
        (low → (u.chan c).gates.get x = waits g) ∧ (¬low → (u.chan c).gates.get x = g)

/-- From gates a to b the bottoms-on entry takes place (R70, R139): the tops turn off, the bottoms that are on stay on, and the others
wait for one instant, the later of now and D ticks after the last turn-off of any top, with the D in force at that turn-off. -/
def Gates.bottomsEntered (a b : Gates) (now : Time) (d : Nat) : Prop :=
  let off := fun x => if (a.get x).top then some ({ time := now, d := d } : TurnOff) else (a.get x).topOff
  ∃ at' : Time,
    (((∀ x, off x = none) ∧ at' = now) ∨
      ∃ x u, off x = some u ∧ (∀ y w, off y = some w → ticksSince now u.time ≤ ticksSince now w.time) ∧
        at' = addTicks now (u.d - ticksSince now u.time)) ∧
    ∀ x, b.get x =
      { a.get x with
        top := false, topOff := off x, topPend := none, bottomPend := if (a.get x).bottom then none else some at' }

/-! ### Event records of a trip cause -/

/-- The link once a cause has been sent to the channels whose state passes a test: the records of M1, M2 and M3 in that order (R140), a
calibration that the cause aborts giving CAL_FAILED before its TRIP (R39). -/
def State.causeRecords (s : State) (k : TripCause) (who : ChanState → Bool) (l : Link) : Link :=
  let record := fun (code : EventCode) (c : Chan) (detail : Nat) =>
    ({ code := code, chan := some c, seq := s.masterSeqNow, repeats := 1, detail := detail } : EventRecord)
  [Chan.m1, Chan.m2, Chan.m3].foldl (fun l c =>
    let x := (s.chan c).state
    let l1 := if x = .calibrating ∧ (k = .faultInput ∨ k = .supervision) then l.queueEvent (record .calFailed c 2) else l
    if who x then
      (if x.driving ∨ x = .tripped then l.queueEvent (record .trip c k.code) else l1.queueEvent (record .trip c (k.code + 256)))
    else l) l

/-! ### The receiver -/

/-- The characters after a start marker are a frame that is neither complete nor too long (R165). -/
def partialFrame (cs : List Byte) : Prop := ∀ len rest, cs = len :: rest → len.toNat ≤ 56 ∧ rest.length < len.toNat + 3

/-- From s the receiver, HUNTING, examines characters in order; it ends in u with what it has kept of a frame (R165, R166, R168). -/
inductive Receives : State → List Byte → List Byte → State → Prop
  | over (s : State) : Receives s [] [] s
  | dropped (s u : State) (ch : Byte) (cs kept : List Byte) : ch ≠ 0xD5 → Receives s cs kept u → Receives s (ch :: cs) kept u
  | collecting (s : State) (cs : List Byte) : partialFrame cs → Receives s (0xD5 :: cs) (0xD5 :: cs) s
  /-- A length above 56: LINK_ERROR LENGTH, and a rescan of what follows the marker. -/
  | tooLong (s u : State) (len : Byte) (cs kept : List Byte) : 56 < len.toNat →
      Receives (s.queueEvent .linkError none 4) (len :: cs) kept u → Receives s (0xD5 :: len :: cs) kept u
  /-- A wrong CRC character: LINK_ERROR CRC, and a rescan of what follows the marker. -/
  | badCrc (s u : State) (len type tag check : Byte) (payload cs kept : List Byte) : payload.length ≤ 56 →
      len.toNat = payload.length → check ≠ crc (len :: type :: tag :: payload) →
      Receives (s.queueEvent .linkError none 0) (len :: type :: tag :: (payload ++ check :: cs)) kept u →
      Receives s (0xD5 :: len :: type :: tag :: (payload ++ check :: cs)) kept u
  | buffered (s u : State) (type tag : Byte) (payload cs kept : List Byte) : payload.length ≤ 56 → s.link.rxBuf.length < 2 →
      Receives
        { s with link := { s.link with rxBuf := s.link.rxBuf ++ [{ type := type, tag := tag, payload := payload }] } } cs kept u →
      Receives s (frameChars type tag payload ++ cs) kept u
  /-- A valid frame while the buffer holds two: LINK_ERROR OVERRUN. -/
  | overrun (s u : State) (type tag : Byte) (payload cs kept : List Byte) : payload.length ≤ 56 → 2 ≤ s.link.rxBuf.length →
      Receives (s.queueEvent .linkError none 3) cs kept u → Receives s (frameChars type tag payload ++ cs) kept u

/-- Every channel but one is the same in two states. -/
def State.sameChannelsBut (s t : State) (c : Chan) : Prop := ∀ x, x ≠ c → t.chan x = s.chan x

/-- From s to t a calibration of the channel ends (R38, R39): STOPPED with zero offset z, every gate off, no plan and nothing of the channel
waiting, and one event record; nothing else changes. -/
def State.endsCalibration (s t : State) (c : Chan) (z : Nat) (code : EventCode) (detail : Nat) : Prop :=
  let k := s.chan c
  t.chan c =
      { k with
        state := .stopped
        z := z
        curPlan := none
        nextPlan := none
        flushed := k.flushed + BitVec.ofNat 32 (s.sched.timeline.countP (fun e => decide (e.owner = .chan c)))
        sq := { k.sq with compare := none }
        rb := { k.rb with work := none }
        gates := (t.chan c).gates } ∧
    (∀ x, ((t.chan c).gates.get x).top = false ∧ ((t.chan c).gates.get x).bottom = false ∧
      ((t.chan c).gates.get x).topPend = none ∧ ((t.chan c).gates.get x).bottomPend = none) ∧
    s.sameChannelsBut t c ∧
    t =
      { s with
        ch := t.ch
        sched := { s.sched with timeline := s.sched.timeline.filter (fun e => decide (e.owner ≠ .chan c)) }
        link := s.link.queueEvent { code := code, chan := some c, seq := s.masterSeqNow, repeats := 1, detail := detail } }

end Sys2Proof.Machine
end

