-- ==== Sys2Proof/WellFormed.lean ====
section
/-!
DEFINITION. Which commands the block can meet: what a frame can carry (ch.10 R163, ch.11 Table 11-2) and which slots hold
channel entries (ch.6 R102).
-/

namespace Sys2Proof

/-- A payload has at most 56 characters (ch.10 R163). -/
def payloadOk (p : List Byte) : Bool := p.length ≤ 56

/-- The operands of a command are ones the block can meet. -/
def Instr.wf : Instr → Bool
  | .deviceStatus _ p => payloadOk p && (p.length != 2 || p.head? == some 0)
  | .channelStatus _ p => p.length == 2 && p.head? != some 0
  | .stopCoast _ p => payloadOk p && (p.length != 2 || p.getLast? != some 1)
  | .stopBrake _ p => p.length == 2 && p.getLast? == some 1
  | .unknownType t _ p => payloadOk p && !requestTypes.contains t
  | .ident _ p => payloadOk p
  | .setLink _ p => payloadOk p
  | .reset _ p => payloadOk p
  | .sleep _ p => payloadOk p
  | .recover _ p => payloadOk p
  | .supervise _ p => payloadOk p
  | .heartbeat _ p => payloadOk p
  | .carrier _ p => payloadOk p
  | .converter _ p => payloadOk p
  | .auxPlan _ p => payloadOk p
  | .limits _ p => payloadOk p
  | .channelSetup _ p => payloadOk p
  | .activate _ p => payloadOk p
  | .profile _ p => payloadOk p
  | .calibrate _ p => payloadOk p
  | .start _ p => payloadOk p
  | .vectorSet _ p => payloadOk p
  | .stepSet _ p => payloadOk p
  | .clearTrip _ p => payloadOk p
  | .late slot => slot < 9
  | .setLinkInForce => true
  | .messageReset => true
  | .quietEntry => true
  | .powerOnReset _ => true
  | .pinReset => true
  | .startUpEnd => true
  | .masterPeriodStart => true
  | .busStale => true
  | .channelPeriodStart _ => true
  | .stale _ => true
  | .staleTrip _ => true
  | .calTimeout _ => true
  | .halfPeriodPoint _ => true
  | .lostSync _ => true
  | .commutationDue _ => true
  | .gateEdge _ _ => true
  | .pendingTurnOn _ _ _ => true
  | .conversionStart => true
  | .conversionComplete _ => true
  | .calDone _ => true
  | .handover _ _ => true
  | .currentLimit _ => true
  | .periodReport _ => true
  | .faultInputAssertion _ => true
  | .faultInputRelease _ => true
  | .slowStep => true
  | .windowExpiry => true
  | .characterArrival _ _ => true
  | .wakeComplete => true
  | .frameTimeout => true
  | .frameSent => true
  | .gapEnd => true
  | .resetRelease => true

end Sys2Proof
end

