-- ==== Sys2Proof/Certificates/Slice0/Obligations.lean ====
section
/-!
DEFINITION. The statements about the model. Each docstring names the rule of spec/ that the statement formalises, or says that it
states a choice of the model and names the log entry.
-/

open Sys2Proof Sys2Proof.Machine

/-! ### The block as a whole -/

/-- A step runs the front command on the state with the queue's rest. -/
def Obligations.StepRunsTheFrontCommand : Prop :=
  ∀ (i : Instr) (s : State), step { s with pending := i :: s.pending } = exec i s

/-- Every command answers a next state and leaves the queue of waiting commands alone: nothing stops the block. That a command whose
conditions do not hold changes nothing is the model's choice (log 3). -/
def Obligations.EveryCommandAnswersNextAndKeepsTheQueue : Prop :=
  ∀ (i : Instr) (s : State), ∃ t, exec i s = .next t ∧ t.pending = s.pending

/-- The model's choice (log 1): with no command waiting, an event that is due becomes the waiting command without time passing; with none
due, a channel's entry whose expiry instant ends is raised as LATE (R113); with none of these, one tick passes. What the tick does is the
rules': device time and the carrier move outside QUIET and start-up (R1, R2), and start-up, the wake, the transmitter, the frame timeout and
the conversion in progress have one tick less left (R12, R13, R100, R164, R166). That the link first deals with what waits at the instant
that ends (log 41), and that a turn-off long past is forgotten (log 20), are the model's. -/
def Obligations.IdleRaisesWhatIsDueOrTicks : Prop :=
  (∀ s : State, s.pending = [] → s.due ++ s.takingDue ≠ [] →
    ∃ t i, step s = .next t ∧ i ∈ s.due ++ s.takingDue ∧ t.pending = [i] ∧ t.tb = s.tb ∧ t.ch = s.ch ∧
      t.sched = s.sched) ∧
  (∀ s : State, s.pending = [] → s.due = [] → s.takingDue = [] → s.expiring ≠ [] →
    ∃ (t : State) (e : Entry) (c : Chan) (n : Nat), step s = .next t ∧ t.pending = [.late e.slot] ∧ e ∈ s.sched.timeline ∧
      e.owner = .chan c ∧ e.tol = some n ∧ notBefore s.tb.now (addTicks e.due n) = true ∧ t.tb = s.tb ∧ t.ch = s.ch ∧
      t.sched = s.sched ∧ t.link = s.link) ∧
  (∀ s : State, s.pending = [] → s.due = [] → s.takingDue = [] → s.expiring = [] →
    ∃ (t : State) (l : Link), step s = .next t ∧ t.pending = [] ∧ t.prot = s.prot ∧ t.sup = s.sup ∧
      (s.mayTransmit = false ∨ s.link.unfinished = false → l = s.link) ∧
      (s.mayTransmit = true → s.link.unfinished = true → l = s.instantOver.link) ∧
      t.link =
        { l with
          tx :=
            match l.tx with
            | .idle => .idle
            | .sending cs e n => .sending cs e (n - 1)
            | .gap n => .gap (n - 1)
          rxLeft := l.rxLeft - 1
          batch := 0 } ∧
      t.power =
        (match s.power.phase with
          | .startUp n => { s.power with phase := .startUp (n - 1) }
          | _ => s.power) ∧
      t.sched = { s.sched with conv := s.sched.conv.map (fun v => { v with left := v.left - 1 }) } ∧
      (s.power.phase = .running → s.tb.dev ≠ .quiet →
        let u := (s.tb.now + 1 - s.tb.masterStart).toNat % (2 * s.tb.h)
        t.tb =
          { s.tb with
            now := s.tb.now + 1, count := if u < s.tb.h then u else 2 * s.tb.h - u, up := decide (u < s.tb.h) }) ∧
      (s.power.phase ≠ .running ∨ s.tb.dev = .quiet →
        t.ch = s.ch ∧ t.tb = { s.tb with wakeLeft := s.tb.wakeLeft.map (fun n => n - 1) }) ∧
      ∀ c, t.chan c = { s.chan c with gates := (t.chan c).gates } ∧
        ∀ x, (t.chan c).gates.get x =
          { (s.chan c).gates.get x with
            topOff := ((t.chan c).gates.get x).topOff, bottomOff := ((t.chan c).gates.get x).bottomOff })

/-! ### Invariants -/

/-- R65: the two switches of a phase are never on together. -/
def Obligations.GatesStayApart : Prop :=
  ∀ s t : State, s.gatesApart → step s = .next t → t.gatesApart

/-- R121: requested equals converted plus late plus flushed plus those waiting or converting. -/
def Obligations.SampleCountersStayInBalance : Prop :=
  ∀ s t : State, s.countersAgree → step s = .next t → t.countersAgree

/-- R104, R168, R170, R172: the queues keep their bounds, and the timeline one entry a slot. -/
def Obligations.QueuesKeepTheirBounds : Prop :=
  ∀ s t : State, s.queuesBounded ∧ s.oneEntryPerSlot → step s = .next t → t.queuesBounded ∧ t.oneEntryPerSlot

/-- R149: ATTN follows its three conditions. -/
def Obligations.AttnFollowsItsConditions : Prop :=
  ∀ s t : State, s.attnRight → step s = .next t → t.attnRight

/-- R157, R10: while the device is LOCKED or QUIET no channel drives its gates or calibrates. -/
def Obligations.NoChannelRunsWhileLockedOrQuiet : Prop :=
  ∀ s t : State, s.restrained → step s = .next t → t.restrained

/-- R3, R103, R116, R148, R152: the carrier, the class levels, the limits, the aux plan and supervision's values keep their ranges. -/
def Obligations.SettingsStayInRange : Prop :=
  ∀ s t : State, s.settingsInRange ∧ s.auxPlanInRange ∧ s.supervisionInRange → step s = .next t →
    t.settingsInRange ∧ t.auxPlanInRange ∧ t.supervisionInRange

/-- R41, R42, R45: amplitude, rate, accumulator, age and the setpoint slot keep their ranges. -/
def Obligations.VectorModulatorsStayInRange : Prop :=
  ∀ s t : State, s.vectorsInRange → step s = .next t → t.vectorsInRange

/-- R23, R137, R140: the switches and plans of a channel fit its state, and a trip record and a safe state stand exactly in
TRIPPED. -/
def Obligations.GatesFitTheChannelState : Prop :=
  ∀ s t : State, s.channelsFit → step s = .next t → t.channelsFit

/-- The state after reset meets every invariant above. It is the instant at which start-up begins, with the levels of the pins that log 7
names, the bookkeeping values of log 35, the idle transmitter of log 45, the recorded cause of log 47 and the released levels of log
48. -/
def Obligations.ResetMeetsEveryInvariant : Prop :=
  State.reset.gatesApart ∧ State.reset.countersAgree ∧ State.reset.queuesBounded ∧ State.reset.oneEntryPerSlot ∧
    State.reset.attnRight ∧ State.reset.restrained ∧ State.reset.settingsInRange ∧ State.reset.auxPlanInRange ∧
    State.reset.supervisionInRange ∧ State.reset.vectorsInRange ∧ State.reset.channelsFit

/-! ### Who writes what -/

/-- R36 to R39, R99: a zero offset is written by a reset, or by the 64th result of the channel's calibration, which lies in the accepted
span. -/
def Obligations.OnlyCalibrationOrResetWritesTheZeroOffset : Prop :=
  ∀ (i : Instr) (s t : State) (c : Chan), exec i s = .next t → (t.chan c).z ≠ (s.chan c).z →
    let ends := (s.chan c).state = .calibrating ∧ (t.chan c).state = .stopped ∧ 1648 ≤ (t.chan c).z ∧ (t.chan c).z ≤ 2448
    (∃ v, i = .powerOnReset v) ∨ i = .pinReset ∨
    ((i = .messageReset ∨ i = .frameSent) ∧ ∃ cs n, s.link.tx = .sending cs .messageReset n) ∨
    (i = .calDone c ∧ ends ∧ 64 ≤ (s.chan c).calResults) ∨
    (∃ raw v, i = .conversionComplete raw ∧ s.sched.conv = some v ∧ v.entry.owner = .chan c ∧ v.entry.purpose = .cal ∧ ends ∧
      64 ≤ (s.chan c).calResults + 1)

/-- R3, R19 to R22, R152, R159: a staged record is written by CHANNEL_SETUP alone, an active record by ACTIVATE and at a period start
of the channel alone, H and D by CARRIER alone, resets apart; and supervision, once enabled, keeps Tc and Te and stays enabled until a
reset. -/
def Obligations.SettingsAreWrittenByTheirRequestsAlone : Prop :=
  ∀ (i : Instr) (s t : State) (c : Chan), exec i s = .next t → resetRow i = false →
    ((t.chan c).staged ≠ (s.chan c).staged → ∃ tag p, i = .channelSetup tag p) ∧
    ((t.chan c).active ≠ (s.chan c).active → (∃ tag p, i = .activate tag p) ∨ i = .channelPeriodStart c) ∧
    ((t.tb.h ≠ s.tb.h ∨ t.tb.d ≠ s.tb.d) → ∃ tag p, i = .carrier tag p) ∧
    (s.sup.enabled = true → t.sup.enabled = true ∧ t.sup.tc = s.sup.tc ∧ t.sup.te = s.sup.te)

/-! ### Frames and codes -/

/-- R163, R165, R167: the receiver, hunting, makes of the characters of a frame exactly that frame. -/
def Obligations.ReceiverReadsBackEveryFrame : Prop :=
  ∀ (type tag : Byte) (payload : List Byte), payload.length ≤ 56 →
    scan 0 (frameChars type tag payload) = ([.frame { type := type, tag := tag, payload := payload }], [])

/-- R175, R177: the frame of a well-formed request is read as that request. Which of two rows a STOP frame of an undefined mode, or a STOP
or STATUS frame of a wrong length, is read as is the model's choice (log 19); the well-formed requests include it. -/
def Obligations.FrameOfARequestIsReadAsThatRequest : Prop :=
  ∀ (i : Instr) (f : Frame), i.wf = true → i.frame = some f → f.instr = i

/-! ### The plan's numbers -/

/-- R46, R48 to R51: the voltages, the zero-sequence offset, the duties and the compare values. R50 to R52: duties lie in 0..65536, compare
values in 0..H; a larger duty never has a larger compare value; and over the sixteen dither indices a phase receives the extra tick in
exactly as many as its sixteenths. -/
def Obligations.ComparesFollowDutyAndDither : Prop :=
  (∀ nU amp : Nat,
    let n : Phase → Nat := fun x =>
      match x with | .u => nU | .v => (nU + 2048) % 3072 | .w => (nU + 1024) % 3072
    let v : Phase → Int := fun x => ((amp : Int) * sine (n x)) / 32768
    let z : Int := -((max (v .u) (max (v .v) (v .w)) + min (v .u) (min (v .v) (v .w))) / 2)
    ∀ x, ((vectorDuties nU amp).get x : Int) = max 0 (min 65536 (32768 + v x + z))) ∧
  (∀ h duty i : Nat, i < 16 →
    let c16 := h * (65536 - duty) / 4096
    let reversed := [0, 8, 4, 12, 2, 10, 6, 14, 1, 9, 5, 13, 3, 11, 7, 15]
    phaseCompare h duty i =
      { int := c16 / 16, six := c16 % 16, c := c16 / 16 + if reversed.getD i 0 < c16 % 16 then 1 else 0 }) ∧
  (∀ nU amp x, (vectorDuties nU amp).get x ≤ 65536) ∧
  (∀ h duty i, (phaseCompare h duty i).c ≤ h) ∧
  (∀ h d1 d2 : Nat, d1 ≤ d2 → compare16 h d2 ≤ compare16 h d1) ∧
  (∀ h duty : Nat,
    (((List.range 16).map (fun i => (phaseCompare h duty i).c)).sum = compare16 h duty))

/-- R61: the compare pair of each phase of a vector plan, its flags and its bounds. R54, R59, R62, R71: the plan's other fields, the order
of equal compares, the windows, the short flags and the sample requests. R53, R72: the step plan; that its sense short flag stays clear in
ALIGN is the model's reading (log 38). R73: the calibration plan. -/
def Obligations.StretchMovesOuterEdgesOnly : Prop :=
  (∀ (cfg : ConfigRecord) (h acc amp dither : Nat),
    let p := vectorPlan cfg h acc amp dither
    let cf := (p.cmp.get p.first).c
    let cm := (p.cmp.get p.middle).c
    let cl := (p.cmp.get p.last).c
    (cfg.stretch = false → ∀ x, p.up.get x = (p.cmp.get x).c ∧ p.dn.get x = (p.cmp.get x).c) ∧
    (cfg.stretch = true →
      (p.up.get p.first : Int) =
        max (min (cf : Int) ((cm : Int) - cfg.window)) (max 0 (2 * (cf : Int) - h)) ∧
      p.up.get p.last = min (max cl (cm + cfg.window)) (min h (2 * cl)) ∧
      p.up.get p.middle = cm) ∧
    (∀ x, p.up.get x + p.dn.get x = 2 * (p.cmp.get x).c ∧ p.up.get x ≤ h ∧ p.dn.get x ≤ h) ∧
    (p.stretchedFirst = true ↔ p.up.get p.first < cf) ∧ (p.stretchedLast = true ↔ cl < p.up.get p.last) ∧
    cf ≤ cm ∧ cm ≤ cl ∧ cf ≤ p.dn.get p.first ∧ p.dn.get p.last ≤ cl ∧
    p.up.get p.first ≤ p.up.get p.middle ∧ p.up.get p.middle ≤ p.up.get p.last ∧
    (let place : Phase → Nat := fun x => match x with | .u => 0 | .v => 1 | .w => 2
     p.first ≠ p.middle ∧ p.first ≠ p.last ∧ p.middle ≠ p.last ∧ (cf = cm → place p.first < place p.middle) ∧
       (cm = cl → place p.middle < place p.last)) ∧
    p.angleInt = acc / 65536 ∧ p.angleFrac = acc % 65536 ∧ p.amp = amp ∧ p.dither = dither ∧
    p.duty = vectorDuties (acc / 65536) amp ∧ (∀ x, p.cmp.get x = phaseCompare h (p.duty.get x) dither) ∧
    (p.winA : Int) = (cm : Int) - p.up.get p.first ∧ (p.winB : Int) = (p.up.get p.last : Int) - cm ∧
    (p.shortA = true ↔ p.winA < cfg.window ∨ cm < cfg.lead) ∧
    (p.shortB = true ↔ p.winB < cfg.window ∨ p.up.get p.last < cfg.lead)) ∧
  (∀ (cfg : ConfigRecord) (h : Nat) (vm : VectorMod) (seq : Seq),
    let p := vectorPlan cfg h vm.acc vm.amp (seq.toNat % 16)
    makeVectorPlan cfg h vm seq =
      { seq := seq
        body := .vector p
        requests :=
          (if p.shortA = true then []
            else [{ purpose := .shuntA, due := (p.cmp.get p.middle).c - cfg.lead, tol := cfg.lead - 20 }]) ++
          (if p.shortB = true then []
            else [{ purpose := .shuntB, due := p.up.get p.last - cfg.lead, tol := cfg.lead - 20 }]) }) ∧
  (∀ (cfg : ConfigRecord) (h d index duty : Nat) (sensing : Bool) (seq : Seq), 82 ≤ h →
    let limited := min duty cfg.ceiling
    let cmp := phaseCompare h limited (seq.toNat % 16)
    let shunt := cmp.c + d ≤ h - 82
    let sense := sensing = true ∧ cmp.c + 30 ≤ h
    makeStepPlan cfg h d index duty sensing seq =
      { seq := seq
        body :=
          .step
            { index := index
              duty := limited
              dither := seq.toNat % 16
              cmp := cmp
              shortA := decide (¬shunt)
              senseShort := decide (sensing = true ∧ h < cmp.c + 30) }
        requests :=
          (if shunt then
            [{ purpose := .shuntA, due := h - 82, tol := min (cfg.lead - 20) (min 80 (h - 82 - (cmp.c + d))) }]
            else []) ++
          (if sense then [{ purpose := .sense, due := h - 10, tol := min cfg.senseTol (h - cmp.c - 30) }] else []) }) ∧
  (∀ (cfg : ConfigRecord) (h : Nat) (seq : Seq),
    makeCalPlan cfg h seq =
      { seq := seq, body := .cal, requests := [{ purpose := .cal, due := h, tol := cfg.lead - 20 }] })

/-- R94, R95: the measurement of a crossing found in CLOSED, and the commutation it puts into the compare. -/
def Obligations.ClosedCrossingMeasuresT60 : Prop :=
  ∀ (s : State) (c : Chan) (tzc u : Time),
    (s.chan c).sq.lastZc = some u → prescalers.contains (s.chan c).sq.p = true →
    1 ≤ (s.chan c).sq.t60 → (s.chan c).sq.t60 ≤ 65535 →
    let p := (s.chan c).sq.p
    let n := ticksSince tzc u / p
    let q := ((s.closedCrossing c tzc).chan c).sq
    (65535 < n → q.p = p ∧ q.t60 = (s.chan c).sq.t60) ∧
    (49151 < n → n ≤ 65535 → p < 128 → q.p = 2 * p ∧ q.t60 = n / 2) ∧
    (49151 < n → n ≤ 65535 → p = 128 → q.p = 128 ∧ q.t60 = n) ∧
    (16384 ≤ n → n ≤ 49151 → q.p = p ∧ q.t60 = n) ∧
    (n < 16384 → 1 < p → q.p = p / 2 ∧ q.t60 = max 1 (2 * n)) ∧
    (n < 16384 → p = 1 → q.p = 1 ∧ q.t60 = max 1 n) ∧
    q.found = true ∧ q.lastZc = some tzc ∧ q.miss = 0 ∧
    q.compare =
      some
        { due := addTicks tzc (q.t60 * q.p * (32 - (s.chan c).sq.advance) / 64), kind := .predicted, reached := false } ∧
    prescalers.contains q.p = true ∧ 1 ≤ q.t60 ∧ q.t60 ≤ 65535

/-- R108: among any candidates the arbiter chooses one, and it is a candidate that no other beats on level, then due instant, then slot. -/
def Obligations.ArbiterChoosesTheHighestThenEarliestThenLowest : Prop :=
  ∀ (base : Time) (es : List Entry), (∀ x ∈ es, (x.due - base).toNat < 2147483648) → es ≠ [] →
    ∃ e, arbiter es = some e ∧ e ∈ es ∧
      ∀ x ∈ es, x.level ≤ e.level ∧ (x.level = e.level → (e.due - base).toNat ≤ (x.due - base).toNat) ∧
        (x.level = e.level → x.due = e.due → e.slot ≤ x.slot)

/-- R172: a record coalesces, is appended, or is discarded, and nothing else of the link changes. The records of one instant, the last
`batch` of the queue, stand with those of the device first, by code, and then those of M1, M2 and M3, each channel's in the order in which
they come; with the queue full, the last of that order is the one discarded. That this order spans the steps of an instant, and that a
record so displaced is discarded with every occurrence it counts, are the model's readings (log 11). -/
def Obligations.EventRecordsCoalesceOrJoinOrAreDiscarded : Prop :=
  ∀ (l : Link) (r : EventRecord),
    let key : EventRecord → Nat := fun e =>
      match e.chan with
      | none => e.code.code
      | some .m1 => 101
      | some .m2 => 102
      | some .m3 => 103
    ((∃ e ∈ l.events, e.code = r.code ∧ e.chan = r.chan) →
      l.queueEvent r =
        { l with
          events := l.events.map (fun e =>
            if e.code = r.code ∧ e.chan = r.chan then { e with repeats := min 255 (e.repeats + 1) } else e) }) ∧
    ((∀ e ∈ l.events, ¬(e.code = r.code ∧ e.chan = r.chan)) →
      ∃ before goFirst goLast, l.events = before ++ goFirst ++ goLast ∧ before.length = l.events.length - l.batch ∧
        (∀ e ∈ goFirst, key e ≤ key r) ∧ (∀ e ∈ goLast.head?, key r < key e) ∧
        (l.events.length < 16 →
          l.queueEvent r = { l with events := before ++ goFirst ++ r :: goLast, batch := l.batch + 1 }) ∧
        (l.events.length = 16 → ∀ kept last, before ++ goFirst ++ r :: goLast = kept ++ [last] →
          l.queueEvent r = { l with events := kept, discarded := min 65535 (l.discarded + last.repeats) })) ∧
    ((∀ e ∈ l.events, ¬(e.code = r.code ∧ e.chan = r.chan)) → l.batch = 0 →
      (l.events.length < 16 → l.queueEvent r = { l with events := l.events ++ [r], batch := 1 }) ∧
      (l.events.length = 16 → r.repeats = 1 → l.queueEvent r = { l with discarded := min 65535 (l.discarded + 1) }))

/-! ### Requests -/

/-- R16: IDENT. -/
def Obligations.IdentAnswersPartRevisionCauseAndRate : Prop :=
  ∀ (tag : Byte) (s : State), s.canTake = true →
    exec (.ident tag []) s =
      .next (s.replied 0x01 tag
        { code := .ok, extra := [0x30, 0x06, 1, byte s.tb.cause.code, byte s.link.rate.code] })

/-- R162: SET_LINK and the coming into force of its values. That the ticks the frame has left pass first (log 2), and that with a gap of
0 the transmitter is ready at once (log 27), are the model's choices. -/
def Obligations.SetLinkTakesEffectWhenItsReplyLeaves : Prop :=
  (∀ (tag r g : Byte) (s : State), s.takes →
    exec (.setLink tag [r, g]) s =
      .next (match rateOf r.toNat with
        | none => s.replied 0x02 tag { code := .badValue, extra := [1] }
        | some rate =>
          if 15 < g.toNat then s.replied 0x02 tag { code := .badValue, extra := [2] }
          else s.replied 0x02 tag { code := .ok, extra := [r, g], effect := .setLink rate g.toNat })) ∧
  (∀ (s : State) (cs : List Byte) (r : Rate) (g n : Nat), s.link.tx = .sending cs (.setLink r g) n →
    let u : State := (s.elapse n).modLink (fun l => { l with rate := r, gap := g, rx := [], rxLeft := 0 })
    (g ≠ 0 →
      exec .setLinkInForce s = .next (u.modLink (fun l => { l with tx := .gap (g * r.bitTicks) })).settle) ∧
    (g = 0 → exec .setLinkInForce s = .next u.ready.settle))

/-- R14: RESET, and the message reset when its reply has left. That the ticks the frame has left pass first (log 2), and that the
transmitter is held as IDLE (log 45), the recorded cause as POWER (log 47) and the kept fault input levels as released (log 48) until
start-up ends, are the model's choices. -/
def Obligations.ResetRequestResetsWhenItsReplyLeaves : Prop :=
  (∀ (tag : Byte) (s : State), s.takes →
    exec (.reset tag []) s =
      .next (({ s with tb := { s.tb with resetPending := true } } : State).replied 0x03 tag
        { code := .ok, effect := .messageReset })) ∧
  (∀ (s : State) (cs : List Byte) (n : Nat), s.link.tx = .sending cs .messageReset n →
    exec .messageReset s =
      .next { State.reset with
        pending := s.pending
        power := { (s.elapse n).power with phase := .startUp 160000, nextCause := .message }
        prot := { Protection.reset with pins := s.prot.pins }
        link := { Link.reset with rate := s.link.rate, gap := s.link.gap }
        fresh := s.fresh })

/-- R10, R11, R157, R160: SLEEP, and QUIET entry when its reply has left, which a supervision trip in between abandons. That a SLEEP while
entry is pending is answered OK in any channel state (log 29), that a channel which a START or CALIBRATE had running in between and which
is idle again does not count against entry (log 39), and that the ticks the frame has left pass first (log 2), are the model's readings. -/
def Obligations.SleepEntersQuietWhenItsReplyLeaves : Prop :=
  (∀ (tag : Byte) (s : State), s.takes →
    exec (.sleep tag []) s =
      .next (if s.tb.quietPending then s.replied 0x04 tag { code := .ok }
        else if s.allIdle = true then
          ({ s with tb := { s.tb with quietPending := true } } : State).replied 0x04 tag
            { code := .ok, effect := .quietEntry }
        else s.replied 0x04 tag { code := .wrongState })) ∧
  (∀ (s : State) (cs : List Byte) (n : Nat), s.link.tx = .sending cs .quietEntry n →
    let idle := ∀ c, (s.chan c).state = .unconfigured ∨ (s.chan c).state = .stopped
    ∃ t, exec .quietEntry s = .next t ∧ t.tb.quietPending = false ∧ t.tb.quietDropped = false ∧
      (s.tb.quietDropped = false → s.tb.dev = .active → idle →
        t.tb.dev = .quiet ∧ t.sched.timeline = [] ∧ t.sup.running = false ∧ t.sup.heartbeat = none ∧
          t.sup.count = s.sup.count ∧ t.sup.stage = s.sup.stage ∧ t.link.rx = [] ∧
          t.link.out = (s.elapse n).link.out ∧ t.link.events = (s.elapse n).link.events ∧
          t.link.rxBuf = s.link.rxBuf ∧ t.prot = s.prot ∧
          ∀ c, (t.chan c).nextStart = none ∧ (t.chan c).nextHalf = none ∧ (t.chan c).state = (s.chan c).state ∧
            (t.chan c).active = (s.chan c).active ∧ (t.chan c).staged = (s.chan c).staged ∧
            (t.chan c).z = (s.chan c).z ∧ (t.chan c).slot = (s.chan c).slot) ∧
      (¬(s.tb.quietDropped = false ∧ s.tb.dev = .active ∧ idle) →
        t.tb = { (s.elapse n).tb with quietPending := false, quietDropped := false } ∧ t.tb.dev = s.tb.dev ∧
          t.sched.timeline = s.sched.timeline ∧ t.sup = s.sup ∧ t.prot = s.prot ∧ t.ch = (s.elapse n).ch ∧
          ∀ c, (t.chan c).state = (s.chan c).state ∧ (t.chan c).nextStart = (s.chan c).nextStart))

/-- R40, R122, R172, R178, R179: STATUS of the device and of a channel, with the bytes of its parts as Tables 11-3 and 11-4 lay them out
(R176) with the codes of Table 11-5, and their lengths. The bytes of an absent thing to which the tables give no value are free, and the
reply moves the model's counter of free values (log 8). -/
def Obligations.StatusReportsItsParts : Prop :=
  (∀ (tag p : Byte) (s : State), s.canTake = true →
    exec (.deviceStatus tag [0, p]) s =
      .next (match s.devicePart p.toNat with
        | some b =>
          ({ s with
            fresh := s.fresh + 1
            link := if p = 0 then { s.link with discarded := 0 } else s.link } : State).replied 0x05 tag
            { code := .ok, extra := b }
        | none => s.replied 0x05 tag { code := .badValue, extra := [2] })) ∧
  (∀ (tag p : Byte) (c : Chan) (s : State), s.canTake = true →
    exec (.channelStatus tag [chanByte c, p]) s =
      .next (match s.channelPart c p.toNat with
        | some b => ({ s with fresh := s.fresh + 1 } : State).replied 0x05 tag { code := .ok, extra := b }
        | none => s.replied 0x05 tag { code := .badValue, extra := [2] })) ∧
  (∀ (tag n p : Byte) (s : State), s.canTake = true → 3 < n.toNat →
    exec (.channelStatus tag [n, p]) s = .next (s.replied 0x05 tag { code := .badValue, extra := [1] })) ∧
  (∀ (s : State) (c : Chan), ∃ f : Nat → Byte,
    let k := s.chan c
    let b := fun (n : Nat) => BitVec.ofNat 8 n
    let w2 := fun (n : Nat) => [b n, b (n / 256)]
    let w4 := fun (n : Nat) => [b n, b (n / 256), b (n / 65536), b (n / 16777216)]
    let bit := fun (weight : Nat) (x : Bool) => if x = true then weight else 0
    let absent : Byte := 0xFF
    let chan3 := fun (x : PerChan Nat) => w2 x.m1 ++ w2 x.m2 ++ w2 x.m3
    let latest := fun (r : Option AuxResult) (i : Nat) =>
      match r with
      | some a => w2 a.raw ++ [b a.merged, b a.age]
      | none => [absent, absent, f i, f (i + 1)]
    let safe : SafeState → Byte := fun x => match x with | .openAll => 0 | .short => 1
    let cause : TripCause → Byte := fun x =>
      match x with
      | .faultInput => 1 | .currentLimit => 2 | .busOver => 3 | .busUnder => 4
      | .temperature => 5 | .stale => 6 | .lostSync => 7 | .supervision => 8
    s.devicePart 0 =
        some ([b (match s.tb.dev with | .active => 0 | .quiet => 1 | .locked => 2)] ++ w2 s.tb.h ++ [b s.tb.d] ++
          w2 s.masterSeqNow.toNat ++ [b (bit 1 s.sup.enabled)] ++ w2 s.sup.tc ++ w2 s.sup.te ++ w2 s.sup.count ++
          [b s.sup.stage] ++ (match s.sup.expected with | some n => w2 n | none => w2 256) ++
          (match s.sup.heartbeat with | some n => w2 n | none => [absent, absent]) ++ w2 s.link.discarded ++
          chan3 s.link.replaced ++ chan3 s.link.skipped) ∧
      s.devicePart 1 =
        some ([b s.sched.shuntLevel, b s.sched.senseLevel, b s.sched.auxLevel] ++
          (match s.sched.conv with | some v => [1, b v.entry.slot, b v.input] | none => [0, absent, absent]) ++
          [b s.sched.timeline.length] ++
          (match s.sched.timeline with | e :: _ => [b e.slot] ++ w4 e.due.toNat | [] => [absent] ++ w4 0) ++
          s.sched.aux.flatMap (fun a =>
            [b (match a.source with | .bus => 0 | .temp => 1 | .spare1 => 2 | .spare2 => 3)] ++ w2 a.instant ++
              [b a.divider])) ∧
      s.devicePart 2 =
        some (latest s.prot.bus 0 ++ latest s.prot.temp 2 ++ latest s.prot.spare1 4 ++ latest s.prot.spare2 6 ++
          [b (match s.prot.busCond with | .normal => 0 | .overLimit => 1 | .underLimit => 2)] ++
          [b (match s.prot.tempCond with | .normal => 0 | .warm => 1 | .hot => 2)] ++ [b s.prot.staleCount] ++
          w2 s.prot.busOver ++ w2 s.prot.busUnder ++ w2 s.prot.tempWarn ++ w2 s.prot.tempTrip) ∧
      s.channelPart c 0 =
        some ([b (match k.state with
            | .unconfigured => 0 | .stopped => 1 | .calibrating => 2 | .vector => 3 | .align => 4
            | .ramp => 5 | .closed => 6 | .braking => 7 | .tripped => 8)] ++
          [b (match k.active.kind with | .vector => 0 | .step => 1)] ++ [safe k.active.safe] ++
          [match k.safe with | some x => safe x | none => absent] ++ w2 k.seq.toNat ++
          [b (bit 1 k.slot.isSome + bit 2 k.live.isSome + bit 4 (s.prot.levels.get c))] ++ w2 k.superseded ++
          (match k.trip with
            | some r => [cause r.first] ++ w2 r.seq.toNat ++ [r.further]
            | none => [0, f 0, f 1, 0]) ++ w2 k.z ++ w4 k.calSum ++ [b k.calResults] ++ w2 k.calPeriods ++
          w2 (BitVec.ofInt 16 k.rb.cur.u.value).toNat ++ w2 (BitVec.ofInt 16 k.rb.cur.v.value).toNat ++
          w2 (BitVec.ofInt 16 k.rb.cur.w.value).toNat ++
          [b (bit 1 k.rb.cur.u.valid + bit 2 k.rb.cur.v.valid + bit 4 k.rb.cur.w.valid + bit 8 k.rb.curSeq.isSome)] ++
          (match k.rb.curSeq with | some q => w2 q.toNat | none => [f 3, f 4])) ∧
      s.channelPart c 1 =
        some (w4 k.requested.toNat ++ w4 k.converted.toNat ++ w4 k.late.toNat ++ w4 k.flushed.toNat ++
          [b (s.sched.timeline.countP (fun e => decide (e.owner = .chan c)) +
            (match s.sched.conv with | some v => if v.entry.owner = .chan c then 1 else 0 | none => 0))] ++
          (match k.active.kind with
            | .vector =>
              w2 k.vm.amp ++ w4 (BitVec.ofInt 32 k.vm.rate).toNat ++ w2 (k.vm.acc / 65536) ++ w2 (k.vm.acc % 65536) ++
                w2 k.vm.age
            | .step =>
              [b k.sq.index, match k.sq.dir with | .forward => 0 | .reverse => 1, b k.sq.seg] ++ w2 k.sq.t60 ++
                [b k.sq.p, b k.sq.miss, b k.sq.qualified]))) ∧
  (∀ s : State, s.sched.aux.length = 4 →
    (s.devicePart 0).map List.length = some 32 ∧ (s.devicePart 1).map List.length = some 28 ∧
      (s.devicePart 2).map List.length = some 27 ∧ (∀ n, 3 ≤ n → s.devicePart n = none) ∧
      ∀ c, (s.channelPart c 0).map List.length = some 31 ∧
        (s.channelPart c 1).map List.length = some (match (s.chan c).active.kind with | .vector => 29 | .step => 25) ∧
        ∀ n, 2 ≤ n → s.channelPart c n = none)

/-- R159: RECOVER. -/
def Obligations.RecoverEndsLocked : Prop :=
  ∀ (tag : Byte) (s : State), s.canTake = true →
    exec (.recover tag []) s =
      .next (if s.tb.dev = .locked then
          ({ s with
            tb := { s.tb with dev := .active }
            sup := { s.sup with count := 0, stage := 0, expected := none, running := true, heartbeat := none } } :
            State).replied 0x06 tag { code := .ok }
        else s.replied 0x06 tag { code := .wrongState })

/-- R152: SUPERVISE. -/
def Obligations.SuperviseEnablesOnce : Prop :=
  ∀ (tag a0 a1 b0 b1 : Byte) (s : State), s.takes →
    exec (.supervise tag [a0, a1, b0, b1]) s =
      .next (if s.sup.enabled then s.replied 0x07 tag { code := .wrongState }
        else if 1000 < u16 a0 a1 then s.replied 0x07 tag { code := .badValue, extra := [1] }
        else if u16 b0 b1 < 10 ∨ 2000 < u16 b0 b1 then s.replied 0x07 tag { code := .badValue, extra := [2] }
        else if u16 b0 b1 ≤ u16 a0 a1 then s.replied 0x07 tag { code := .badValue, extra := [1] }
        else
          ({ s with
            sup :=
              { s.sup with
                enabled := true, tc := u16 a0 a1, te := u16 b0 b1, count := 0, stage := 0, expected := none,
                running := true } } : State).replied 0x07 tag { code := .ok })

/-- R153: HEARTBEAT. -/
def Obligations.HeartbeatWaitsForTheSlowStep : Prop :=
  ∀ (tag n : Byte) (s : State), s.takes →
    exec (.heartbeat tag [n]) s =
      .next (if s.sup.enabled = false then s.replied 0x08 tag { code := .wrongState }
        else if s.sup.heartbeat.isSome then s.replied 0x08 tag { code := .busy }
        else ({ s with sup := { s.sup with heartbeat := some n.toNat } } : State).replied 0x08 tag { code := .ok })

/-- R4, R5, R6, R115, R119: CARRIER. The master period start of sequence 0 is a row of its own, the model's choice (log 6). -/
def Obligations.CarrierChecksThenRestarts : Prop :=
  ∀ (tag a0 a1 b0 b1 : Byte) (s : State), s.takes →
    let h := u16 a0 a1
    let d := u16 b0 b1
    let idle := ∀ c, (s.chan c).state = .unconfigured ∨ (s.chan c).state = .stopped
    let fits : Chan → Prop := fun c =>
      (s.chan c).state = .stopped →
        (s.chan c).active.offset < 2 * h ∧ (s.chan c).active.window ≤ h / 2 ∧
          ((s.chan c).active.stretch = true → d + (s.chan c).active.lead ≤ (s.chan c).active.window)
    (h < 1000 ∨ 10000 < h →
      exec (.carrier tag [a0, a1, b0, b1]) s = .next (s.replied 0x10 tag { code := .badValue, extra := [1] })) ∧
    (1000 ≤ h → h ≤ 10000 → 255 < d →
      exec (.carrier tag [a0, a1, b0, b1]) s = .next (s.replied 0x10 tag { code := .badValue, extra := [2] })) ∧
    (1000 ≤ h → h ≤ 10000 → d ≤ 255 → ¬idle →
      exec (.carrier tag [a0, a1, b0, b1]) s = .next (s.replied 0x10 tag { code := .wrongState })) ∧
    (1000 ≤ h → h ≤ 10000 → d ≤ 255 → idle →
      ∀ c, ¬fits c → (∀ x, chanCode x < chanCode c → fits x) →
        exec (.carrier tag [a0, a1, b0, b1]) s =
          .next (s.replied 0x10 tag { code := .conflict, extra := [chanByte c] })) ∧
    (1000 ≤ h → h ≤ 10000 → d ≤ 255 → idle → (∀ c, fits c) →
      ∃ u : State, exec (.carrier tag [a0, a1, b0, b1]) s = .next (u.replied 0x10 tag { code := .ok }) ∧
        u.tb =
          { s.tb with
            h := h, d := d, count := 0, up := true, masterSeq := 0, masterStart := s.tb.now, masterTaken := 0,
            masterNext := s.tb.now, masterNextSeq := 0 } ∧
        u.sched =
          { s.sched with
            timeline := []
            aux := s.sched.aux.map (fun a => { a with instant := a.instant % (2 * h), wait := 0 }) } ∧
        (∀ c, u.chan c =
          { s.chan c with
            flushed := (s.chan c).flushed + BitVec.ofNat 32 (s.sched.waiting c)
            seq := 0
            latest := none
            nextStart :=
              if (s.chan c).state = .unconfigured then none else some (addTicks s.tb.now (s.chan c).active.offset, 0)
            nextHalf :=
              if (s.chan c).state = .unconfigured then none
              else some { time := addTicks s.tb.now (s.chan c).active.offset, peak := false } }) ∧
        u.power = s.power ∧ u.prot = s.prot ∧ u.sup = s.sup ∧ u.link = s.link ∧ u.pending = s.pending)

/-- R103, R148: CONVERTER replaces the three class levels, LIMITS the four limits, each whole or not at all. -/
def Obligations.ConverterAndLimitsReplaceTheirValues : Prop :=
  (∀ (tag a b c : Byte) (s : State), s.takes →
    exec (.converter tag [a, b, c]) s =
      .next (if 2 < a.toNat then s.replied 0x11 tag { code := .badValue, extra := [1] }
        else if 2 < b.toNat then s.replied 0x11 tag { code := .badValue, extra := [2] }
        else if 2 < c.toNat then s.replied 0x11 tag { code := .badValue, extra := [3] }
        else
          ({ s with sched := { s.sched with shuntLevel := a.toNat, senseLevel := b.toNat, auxLevel := c.toNat } } :
            State).replied 0x11 tag { code := .ok })) ∧
  (∀ (tag a0 a1 b0 b1 c0 c1 d0 d1 : Byte) (s : State), s.takes →
    let a := u16 a0 a1
    let b := u16 b0 b1
    let c := u16 c0 c1
    let d := u16 d0 d1
    exec (.limits tag [a0, a1, b0, b1, c0, c1, d0, d1]) s =
      .next (if 4095 < a then s.replied 0x13 tag { code := .badValue, extra := [1] }
        else if 4095 < b then s.replied 0x13 tag { code := .badValue, extra := [2] }
        else if 4095 < c then s.replied 0x13 tag { code := .badValue, extra := [3] }
        else if 4095 < d then s.replied 0x13 tag { code := .badValue, extra := [4] }
        else if b ≠ 0 ∧ a ≤ b then s.replied 0x13 tag { code := .badValue, extra := [2] }
        else if d < c then s.replied 0x13 tag { code := .badValue, extra := [3] }
        else
          ({ s with prot := { s.prot with busOver := a, busUnder := b, tempWarn := c, tempTrip := d } } :
            State).replied 0x13 tag { code := .ok }))

/-- R118: AUX_PLAN. -/
def Obligations.AuxPlanWritesItsEntries : Prop :=
  ∀ (tag : Byte) (p : List Byte) (st : Nat) (l : List AuxFields) (s : State), s.takes → s.sched.aux.length = 4 →
    readAuxPlan p = some (st, l) →
    (3 < st ∨ 4 < st + l.length →
      exec (.auxPlan tag p) s = .next (s.replied 0x12 tag { code := .badValue, extra := [1] })) ∧
    (st ≤ 3 → st + l.length ≤ 4 → ∀ i a, l[i]? = some a →
      (∀ j b, j < i → l[j]? = some b → b.source ≤ 3 ∧ b.instant < 2 * s.tb.h ∧ b.divider ≤ 64) →
      (3 < a.source →
        exec (.auxPlan tag p) s = .next (s.replied 0x12 tag { code := .badValue, extra := [byte (2 + 3 * i)] })) ∧
      (a.source ≤ 3 → 2 * s.tb.h ≤ a.instant →
        exec (.auxPlan tag p) s = .next (s.replied 0x12 tag { code := .badValue, extra := [byte (3 + 3 * i)] })) ∧
      (a.source ≤ 3 → a.instant < 2 * s.tb.h → 64 < a.divider →
        exec (.auxPlan tag p) s = .next (s.replied 0x12 tag { code := .badValue, extra := [byte (4 + 3 * i)] }))) ∧
    (st ≤ 3 → st + l.length ≤ 4 → (∀ a ∈ l, a.source ≤ 3 ∧ a.instant < 2 * s.tb.h ∧ a.divider ≤ 64) →
      ∃ aux : List AuxEntry,
        exec (.auxPlan tag p) s =
          .next (({ s with sched := { s.sched with aux := aux } } : State).replied 0x12 tag { code := .ok }) ∧
        aux.length = 4 ∧
        (∀ i a, l[i]? = some a → ∃ e, aux[st + i]? = some e ∧ e.source.code = a.source ∧ e.instant = a.instant ∧
          e.divider = a.divider ∧ e.wait = 0) ∧
        ∀ j, (j < st ∨ st + l.length ≤ j) → aux[j]? = s.sched.aux[j]?)

/-- R18: in a request that addresses a channel, a channel field that names none fails as field 1. -/
def Obligations.ChannelFieldNamingNoneFailsAsFieldOne : Prop :=
  ∀ (tag : Byte) (s : State), s.takes →
    (∀ n : Byte, n = 0 ∨ 3 < n.toNat →
      let bad := fun (type : Byte) => Host.Outcome.next (s.replied type tag { code := .badValue, extra := [1] })
      exec (.activate tag [n]) s = bad 0x21 ∧ exec (.calibrate tag [n]) s = bad 0x23 ∧
        exec (.start tag [n]) s = bad 0x24 ∧ (∀ d f l i, exec (.start tag [n, d, f, l, i]) s = bad 0x24) ∧
        (∀ m, exec (.stopCoast tag [n, m]) s = bad 0x25 ∧ exec (.stopBrake tag [n, m]) s = bad 0x25) ∧
        exec (.clearTrip tag [n]) s = bad 0x28) ∧
    (∀ (n : Nat) (p : List Byte), n = 0 ∨ 3 < n →
      (∀ l, readSetup p = some (n, l) →
        exec (.channelSetup tag p) s = .next (s.replied 0x20 tag { code := .badValue, extra := [1] })) ∧
      (∀ x, readProfile p = some (n, x) →
        exec (.profile tag p) s = .next (s.replied 0x22 tag { code := .badValue, extra := [1] })) ∧
      (∀ f, readVectorSet p = some f → f.chan = n →
        exec (.vectorSet tag p) s = .next (s.replied 0x26 tag { code := .badValue, extra := [1] })) ∧
      (∀ f, readStepSet p = some f → f.chan = n →
        exec (.stepSet tag p) s = .next (s.replied 0x27 tag { code := .badValue, extra := [1] })))

/-- R19, Table 2-1: CHANNEL_SETUP refuses the first pair whose field number or value is out of range, and otherwise writes every pair, in
order, into the staged record. -/
def Obligations.ChannelSetupWritesTheStagedRecordAlone : Prop :=
  ∀ (tag : Byte) (p : List Byte) (c : Chan) (l : List (Nat × Nat)) (s : State), s.takes →
    readSetup p = some (chanCode c, l) →
    let good : Nat × Nat → Prop := fun x =>
      ((x.1 = 1 ∨ x.1 = 3 ∨ x.1 = 6) ∧ x.2 ≤ 1) ∨ (x.1 = 2 ∧ x.2 ≤ 19999) ∨ ((x.1 = 4 ∨ x.1 = 16) ∧ x.2 ≤ 1023) ∨
        (x.1 = 5 ∧ 20 ≤ x.2 ∧ x.2 ≤ 255) ∨ ((x.1 = 7 ∨ x.1 = 10) ∧ 1 ≤ x.2 ∧ x.2 ≤ 4095) ∨
        (x.1 = 8 ∧ 1 ≤ x.2 ∧ x.2 ≤ 15) ∨ (x.1 = 9 ∧ x.2 ≤ 255) ∨ (x.1 = 11 ∧ 2 ≤ x.2 ∧ x.2 ≤ 4095) ∨
        (x.1 = 12 ∧ x.2 ≤ 31) ∨ (x.1 = 13 ∧ x.2 ≤ 15) ∨ (x.1 = 14 ∧ 1 ≤ x.2 ∧ x.2 ≤ 7) ∨
        (x.1 = 15 ∧ 2 ≤ x.2 ∧ x.2 ≤ 15) ∨ (x.1 = 17 ∧ x.2 ≤ 65535)
    let put : ConfigRecord → Nat × Nat → ConfigRecord := fun r x =>
      { kind := if x.1 = 1 then (if x.2 = 0 then .vector else .step) else r.kind
        offset := if x.1 = 2 then x.2 else r.offset
        stretch := if x.1 = 3 then decide (x.2 = 1) else r.stretch
        window := if x.1 = 4 then x.2 else r.window
        lead := if x.1 = 5 then x.2 else r.lead
        safe := if x.1 = 6 then (if x.2 = 0 then .openAll else .short) else r.safe
        curLimit := if x.1 = 7 then x.2 else r.curLimit
        limitPeriods := if x.1 = 8 then x.2 else r.limitPeriods
        report := if x.1 = 9 then x.2 else r.report
        s1 := if x.1 = 10 then x.2 else r.s1
        s2 := if x.1 = 11 then x.2 else r.s2
        advance := if x.1 = 12 then x.2 else r.advance
        blanking := if x.1 = 13 then x.2 else r.blanking
        missLimit := if x.1 = 14 then x.2 else r.missLimit
        q := if x.1 = 15 then x.2 else r.q
        senseTol := if x.1 = 16 then x.2 else r.senseTol
        ceiling := if x.1 = 17 then x.2 else r.ceiling }
    (∀ before x rest, l = before ++ x :: rest → (∀ y ∈ before, good y) → ¬good x →
      exec (.channelSetup tag p) s = .next (s.replied 0x20 tag { code := .badValue, extra := [byte x.1] })) ∧
    ((∀ x ∈ l, good x) →
      exec (.channelSetup tag p) s =
        .next ((s.modCh c (fun k => { k with staged := l.foldl put k.staged })).replied 0x20 tag { code := .ok }))

/-- R8, R20, R21, R22: ACTIVATE. Where the channel leaves UNCONFIGURED or its offset moves, the next period start is the first of those
paired with a master period start from the one before the current one (where the restart has had one) to the second after it. That an
instant equal to now is passed over, and that a half-period point of the latest period stays to come, are readings of R8 and R7 (log
18). -/
def Obligations.ActivateChecksThenCopies : Prop :=
  ∀ (tag : Byte) (c : Chan) (s : State), s.takes →
    let k := s.chan c
    let r := k.staged
    let run := exec (.activate tag [chanByte c]) s
    let bad := fun n => Host.Outcome.next (s.replied 0x21 tag { code := .badValue, extra := [n] })
    let state := k.state = .calibrating ∨ k.state = .tripped
    let o := r.offset < 2 * s.tb.h
    let w := r.window ≤ s.tb.h / 2
    let g := r.stretch = true → s.tb.d + r.lead ≤ r.window
    (state → run = .next (s.replied 0x21 tag { code := .wrongState })) ∧
    (¬state → ¬o → run = bad 2) ∧
    (¬state → o → ¬w → run = bad 4) ∧
    (¬state → o → w → ¬g → run = bad 4) ∧
    (¬state → o → w → g → r.s2 ≤ r.s1 → run = bad 10) ∧
    (¬state → o → w → g → r.s1 < r.s2 → k.state.driving = true → k.active.sameNonLive r = false →
      run = .next (s.replied 0x21 tag { code := .wrongState })) ∧
    (¬state → o → w → g → r.s1 < r.s2 → k.state.driving = true → k.active.sameNonLive r = true →
      run = .next ((s.modCh c (fun x => { x with live := some r.liveValues })).replied 0x21 tag { code := .ok })) ∧
    (¬state → o → w → g → r.s1 < r.s2 → k.state.driving = false →
      ∃ u : State, run = .next (u.replied 0x21 tag { code := .ok }) ∧ s.sameChannelsBut u c ∧
        u.tb = s.tb ∧ u.sched = s.sched ∧ u.prot = s.prot ∧ u.sup = s.sup ∧ u.link = s.link ∧
        u.chan c =
          { k with
            active := r
            live := none
            state := .stopped
            slot := if k.active.kind = r.kind then k.slot else none
            nextStart := (u.chan c).nextStart
            nextHalf := (u.chan c).nextHalf } ∧
        (k.state = .stopped → k.active.offset = r.offset →
          (u.chan c).nextStart = k.nextStart ∧ (u.chan c).nextHalf = k.nextHalf) ∧
        let m : Time × Seq := if s.masterDue then (s.tb.masterNext, s.tb.masterNextSeq) else (s.tb.masterStart, s.tb.masterSeq)
        let low : Int := if (if s.masterDue then 1 ≤ s.tb.masterTaken else 2 ≤ s.tb.masterTaken) then -1 else 0
        let start := fun (i : Int) =>
          (addTicks (m.1 + BitVec.ofInt 32 (i * (2 * s.tb.h : Nat))) r.offset, m.2 + BitVec.ofInt 16 i)
        let fits := fun (i : Int) =>
          later (start i).1 s.tb.now = true ∧ (k.latest = none ∨ 0 < ((start i).2 - k.seq).toInt)
        (k.state = .unconfigured ∨ k.active.offset ≠ r.offset →
          (∀ i : Int, low ≤ i → i ≤ 2 → fits i → (∀ j : Int, low ≤ j → j < i → ¬fits j) →
            (u.chan c).nextStart = some (start i)) ∧
          ∀ x, (u.chan c).nextStart = some x →
            (u.chan c).nextHalf =
              (match k.nextHalf, k.latest with
                | some p, some t =>
                  if p.time = (if p.peak then addTicks t s.tb.h else t) then some p else some { time := x.1, peak := false }
                | _, _ => some { time := x.1, peak := false })))

/-- R18, R80: PROFILE. -/
def Obligations.ProfileWritesItsSegments : Prop :=
  ∀ (tag : Byte) (p : List Byte) (c : Chan) (st : Nat) (l : List SegmentFields) (s : State), s.takes →
    (s.chan c).sq.profile.length = 16 → readProfile p = some (chanCode c, st, l) →
    let run := exec (.profile tag p) s
    let busy := (s.chan c).state = .align ∨ (s.chan c).state = .ramp
    let good := fun (g : SegmentFields) =>
      g.kind ≤ 1 ∧ 5 ≤ g.t0 ∧ g.t0 ≤ 10000 ∧ 1 ≤ g.repeats ∧
        (g.t1 ≠ 0 → 5 ≤ g.t1 ∧ g.t1 ≤ 10000 ∧ g.kind = 1)
    (busy → run = .next (s.replied 0x22 tag { code := .busy })) ∧
    (¬busy → 15 < st ∨ 16 < st + l.length →
      run = .next (s.replied 0x22 tag { code := .badValue, extra := [2] })) ∧
    (¬busy → st ≤ 15 → st + l.length ≤ 16 → ∀ i g, l[i]? = some g → (∀ j h, j < i → l[j]? = some h → good h) →
      let bad := fun n => Host.Outcome.next (s.replied 0x22 tag { code := .badValue, extra := [byte (n + 5 * i)] })
      (1 < g.kind → run = bad 3) ∧
      (g.kind ≤ 1 → g.t0 < 5 ∨ 10000 < g.t0 → run = bad 5) ∧
      (g.kind ≤ 1 → 5 ≤ g.t0 → g.t0 ≤ 10000 → g.repeats = 0 → run = bad 6) ∧
      (g.kind ≤ 1 → 5 ≤ g.t0 → g.t0 ≤ 10000 → 1 ≤ g.repeats → g.t1 ≠ 0 → g.t1 < 5 ∨ 10000 < g.t1 ∨ g.kind = 0 →
        run = bad 7)) ∧
    (¬busy → st ≤ 15 → st + l.length ≤ 16 → (∀ g ∈ l, good g) →
      ∃ prof : List (Option Segment),
        run =
          .next ((s.modCh c (fun k => { k with sq := { k.sq with profile := prof } })).replied 0x22 tag { code := .ok }) ∧
        prof.length = 16 ∧
        (∀ i g, l[i]? = some g →
          prof[st + i]? =
            some (some
              { kind := if g.kind = 0 then .align else .ramp
                duty := g.duty
                t0 := g.t0
                repeats := g.repeats
                t1 := if g.t1 = 0 then none else some g.t1 })) ∧
        ∀ j, (j < st ∨ st + l.length ≤ j) → prof[j]? = (s.chan c).sq.profile[j]?)

/-- R36: CALIBRATE. -/
def Obligations.CalibrateBeginsFromStopped : Prop :=
  ∀ (tag : Byte) (c : Chan) (s : State), s.takes →
    exec (.calibrate tag [chanByte c]) s =
      .next (if (s.chan c).state ≠ .stopped then s.replied 0x23 tag { code := .wrongState }
        else if s.prot.levels.get c then s.replied 0x23 tag { code := .faultActive }
        else
          (s.modCh c (fun k =>
            { k with state := .calibrating, calSum := 0, calResults := 0, calPeriods := 0 })).replied 0x23 tag
            { code := .ok })

/-- R24, R25, R26, R41, R82, R124: START of a vector channel and of a step channel. That START of a step channel clears the vector age
and marker too is the model's reading (log 36). -/
def Obligations.StartChecksThenRuns : Prop :=
  (∀ (tag : Byte) (c : Chan) (s : State), s.takes →
    let k := s.chan c
    exec (.start tag [chanByte c]) s =
      .next (if k.state ≠ .stopped then s.replied 0x24 tag { code := .wrongState }
        else if k.active.kind = .step then s.replied 0x24 tag { code := .conflict, extra := [chanByte c] }
        else if s.prot.levels.get c then s.replied 0x24 tag { code := .faultActive }
        else if k.slot = none then s.replied 0x24 tag { code := .noSetpoint }
        else
          (s.modCh c (fun k =>
            { k with
              state := .vector
              vm := { k.vm with age := 0, marker := false }
              rb :=
                { k.rb with
                  cur := ⟨.invalid, .invalid, .invalid⟩, curSeq := none, overCount := 0, report := 0 } })).replied
            0x24 tag { code := .ok })) ∧
  (∀ (tag d f l i : Byte) (c : Chan) (s : State), s.takes →
    let k := s.chan c
    let run := exec (.start tag [chanByte c, d, f, l, i]) s
    let bad := fun n => Host.Outcome.next (s.replied 0x24 tag { code := .badValue, extra := [n] })
    let ready := k.state = .stopped ∧ k.active.kind = .step ∧ s.prot.levels.get c = false
    let filled := ∀ j, f.toNat ≤ j → j ≤ l.toNat → ∃ g, k.sq.profile[j]? = some (some g)
    (k.state ≠ .stopped → run = .next (s.replied 0x24 tag { code := .wrongState })) ∧
    (k.state = .stopped → k.active.kind = .vector →
      run = .next (s.replied 0x24 tag { code := .conflict, extra := [chanByte c] })) ∧
    (k.state = .stopped → k.active.kind = .step → s.prot.levels.get c = true →
      run = .next (s.replied 0x24 tag { code := .faultActive })) ∧
    (ready → 1 < d.toNat → run = bad 2) ∧
    (ready → d.toNat ≤ 1 → 15 < f.toNat → run = bad 3) ∧
    (ready → d.toNat ≤ 1 → f.toNat ≤ 15 → 15 < l.toNat ∨ l.toNat < f.toNat → run = bad 4) ∧
    (ready → d.toNat ≤ 1 → l.toNat ≤ 15 → f.toNat ≤ l.toNat → ¬filled → run = bad 3) ∧
    (ready → d.toNat ≤ 1 → l.toNat ≤ 15 → f.toNat ≤ l.toNat → filled → 5 < i.toNat → run = bad 5) ∧
    (ready → d.toNat ≤ 1 → l.toNat ≤ 15 → f.toNat ≤ l.toNat → filled → i.toNat ≤ 5 →
      ∀ g, k.sq.profile[f.toNat]? = some (some g) →
        run =
          .next ((s.modCh c (fun k =>
            { k with
              state := match g.kind with | .align => .align | .ramp => .ramp
              sq :=
                { k.sq with
                  dir := if d = 0 then .forward else .reverse
                  first := f.toNat, last := l.toNat, seg := f.toNat, index := i.toNat, j := 0
                  advance := k.active.advance, compare := none, lastComm := none, lastZc := none, prev := none
                  found := false, blanking := 0, miss := 0, qualified := 0 }
              vm := { k.vm with age := 0, marker := false }
              rb :=
                { k.rb with
                  cur := ⟨.invalid, .invalid, .invalid⟩, curSeq := none, overCount := 0, report := 0 } })).replied
            0x24 tag { code := .ok })))

/-- R27, R28, R29, R39, R70: STOP of either mode, by channel state. An undefined mode is taken as the row STOP_COAST, the model's choice
(log 19). -/
def Obligations.StopActsByStateAndMode : Prop :=
  ∀ (tag : Byte) (c : Chan) (s : State), s.takes →
    let k := s.chan c
    let coast := exec (.stopCoast tag [chanByte c, 0]) s
    let brake := exec (.stopBrake tag [chanByte c, 1]) s
    let ended := s.endRun c
    (k.state = .unconfigured ∨ k.state = .tripped →
      coast = .next (s.replied 0x25 tag { code := .wrongState }) ∧
        brake = .next (s.replied 0x25 tag { code := .wrongState })) ∧
    (k.state = .stopped →
      coast = .next (s.replied 0x25 tag { code := .ok }) ∧ brake = .next (s.replied 0x25 tag { code := .ok })) ∧
    (k.state = .braking → brake = .next (s.replied 0x25 tag { code := .ok })) ∧
    (k.state = .calibrating →
      ∃ t, s.endsCalibration t c k.z .calFailed 2 ∧ coast = .next (t.replied 0x25 tag { code := .ok }) ∧
        brake = .next (t.replied 0x25 tag { code := .ok })) ∧
    (k.state.driving = true →
      coast =
        .next ((ended.modCh c (fun x =>
          { x with state := .stopped, gates := Gates.allOff x.gates s.tb.now s.tb.d })).replied 0x25 tag { code := .ok })) ∧
    (k.state.running = true →
      ∃ g : Gates, Gates.bottomsEntered k.gates g s.tb.now s.tb.d ∧
        brake = .next ((ended.modCh c (fun x => { x with state := .braking, gates := g })).replied 0x25 tag { code := .ok })) ∧
    (∀ m : Byte, 1 < m.toNat →
      exec (.stopCoast tag [chanByte c, m]) s = .next (s.replied 0x25 tag { code := .badValue, extra := [2] }))

/-- R42: VECTOR_SET. -/
def Obligations.VectorSetStoresTheLimitedSetpoint : Prop :=
  (∀ (tag : Byte) (p : List Byte) (c : Chan) (a : Nat) (w : Int) (θ : Option Nat) (s : State), s.takes →
    readVectorSet p = some { chan := chanCode c, amp := a, rate := w, theta := θ } →
    exec (.vectorSet tag p) s =
      .next (if (s.chan c).state = .unconfigured then s.replied 0x26 tag { code := .wrongState }
        else if (s.chan c).active.kind = .step then
          s.replied 0x26 tag { code := .conflict, extra := [chanByte c] }
        else
          (s.modCh c (fun k =>
            { k with
              slot :=
                some (.vector (if 37837 < a then 37837 else a)
                  (if 33554432 < w then 33554432 else if w < -33554432 then -33554432 else w)
                  (θ.map (fun n => n % 3072)))
              superseded := if k.slot = none then k.superseded else min 65535 (k.superseded + 1) })).replied 0x26 tag
            { code := if 37837 < a ∨ 33554432 < w ∨ w < -33554432 then .clamped else .ok })) ∧
  (∀ (tag : Byte) (p : List Byte) (f : VectorFields) (s : State), s.takes → readVectorSet p = some f →
    f.chan = 0 ∨ 3 < f.chan →
    exec (.vectorSet tag p) s = .next (s.replied 0x26 tag { code := .badValue, extra := [1] }))

/-- R34, R77: STEP_SET. -/
def Obligations.StepSetStoresTheLimitedSetpoint : Prop :=
  ∀ (tag : Byte) (p : List Byte) (c : Chan) (d : Nat) (adv : Option Nat) (s : State), s.takes →
    readStepSet p = some { chan := chanCode c, duty := d, advance := adv } →
    exec (.stepSet tag p) s =
      .next (if (s.chan c).state = .unconfigured then s.replied 0x27 tag { code := .wrongState }
        else if (s.chan c).active.kind = .vector then
          s.replied 0x27 tag { code := .conflict, extra := [chanByte c] }
        else
          (s.modCh c (fun k =>
            { k with
              slot := some (.step (min k.active.ceiling d) (adv.map (fun n => min 31 n)))
              superseded := if k.slot = none then k.superseded else min 65535 (k.superseded + 1) })).replied 0x27 tag
            { code := if (s.chan c).active.ceiling < d ∨ (∃ n, adv = some n ∧ 31 < n) then .clamped else .ok })

/-- R31, R150: CLEAR_TRIP. -/
def Obligations.ClearTripEndsTheEpisode : Prop :=
  ∀ (tag : Byte) (c : Chan) (s : State), s.takes →
    exec (.clearTrip tag [chanByte c]) s =
      .next (if (s.chan c).state ≠ .tripped then s.replied 0x28 tag { code := .wrongState }
        else if s.prot.levels.get c then s.replied 0x28 tag { code := .faultActive }
        else
          (s.modCh c (fun k =>
            { k with
              state := .stopped
              gates := Gates.allOff k.gates s.tb.now s.tb.d
              trip := none
              safe := none
              slot := none
              vm := { k.vm with age := 0, marker := false }
              rb := { k.rb with overCount := 0 }
              sq := { k.sq with miss := 0, qualified := 0 } })).replied 0x28 tag { code := .ok })

/-- R158: in LOCKED every other request is answered LOCKED and changes nothing. -/
def Obligations.LockedRefusesAllButIdentStatusRecover : Prop :=
  ∀ (i : Instr) (f : Frame) (s : State), i.wf = true → i.frame = some f → s.canTake = true → s.tb.dev = .locked →
    validLength f.type f.payload.length = true → passedInLocked f.type = false →
    exec i s = .next (s.replied f.type f.tag { code := .locked })

/-- R169, R177: a frame whose type names no request is answered UNKNOWN, and a payload length that Table 11-2 does not give BAD_LENGTH;
nothing but the reply changes. -/
def Obligations.UnknownTypeAndBadLengthReachNoOwner : Prop :=
  (∀ (type tag : Byte) (p : List Byte) (s : State), s.canTake = true → requestTypes.contains type = false →
    exec (.unknownType type tag p) s = .next (s.replied type tag { code := .unknown })) ∧
  (∀ (i : Instr) (f : Frame) (s : State), i.wf = true → i.frame = some f → s.canTake = true →
    requestTypes.contains f.type = true → validLength f.type f.payload.length = false →
    exec i s = .next (s.replied f.type f.tag { code := .badLength }))

/-! ### Reset, start-up and time -/

/-- R13, R15: the supply, the RESET pin and the end of start-up. That the first master period start is a row of its own (log 6), that a
report of valid supply resets a running block again (log 28), that a gap of 0 stands as a gap with no ticks left (log 27), and that the
transmitter is held as IDLE (log 45), the recorded cause as POWER (log 47) and the kept fault input levels as released (log 48) until
start-up ends are the model's choices. -/
def Obligations.ResetsAndStartUp : Prop :=
  (∀ (v : Bool) (s : State),
    exec (.powerOnReset v) s =
      .next { State.reset with
        pending := s.pending
        power :=
          { s.power with
            supply := v
            supplyNew := v || s.power.supplyNew
            phase := if v = false then .off else if s.power.pinLow then .held else .startUp 160000 }
        prot := { Protection.reset with pins := s.prot.pins }
        fresh := s.fresh }) ∧
  (∀ s : State,
    exec .pinReset s =
      .next { State.reset with
        pending := s.pending
        power :=
          { s.power with
            pinLow := true, nextCause := .pin, phase := if s.power.supply = false then .off else .held }
        prot := { Protection.reset with pins := s.prot.pins }
        fresh := s.fresh }) ∧
  (∀ s : State, s.power.pinLow = true →
    exec .resetRelease s =
      .next { s with
        power :=
          { s.power with
            pinLow := false, phase := if s.power.supply = false then .off else .startUp 160000 }
        attn := false }) ∧
  (∀ (s : State) (n : Nat), s.power.phase = .startUp n → s.link.events = [] → s.link.batch = 0 →
    (∀ c, (s.chan c).state = .unconfigured) →
    ∃ t, exec .startUpEnd s = .next t ∧ t.power = { s.power with phase := .running, supplyNew := false } ∧
      t.tb.now = 0 ∧ t.tb.dev = .active ∧ t.tb.h = s.tb.h ∧ t.tb.d = s.tb.d ∧
      t.tb.cause = (if s.power.supplyNew then .power else s.power.nextCause) ∧
      t.tb.count = 0 ∧ t.tb.up = true ∧ t.tb.masterNext = 0 ∧ t.tb.masterNextSeq = 0 ∧
      t.link.tx = .gap (s.link.gap * s.link.rate.bitTicks) ∧
      t.link.events =
        { code := .resetDone, chan := none, seq := 0, repeats := 1, detail := t.tb.cause.code } ::
          (Chan.all.filter (fun c => s.prot.pins.get c)).map
            (fun c => { code := .trip, chan := some c, seq := 0, repeats := 1, detail := 257 }) ∧
      t.prot.levels = s.prot.pins ∧ t.attn = true ∧ ∀ c, (t.chan c).state = .unconfigured)

/-- R2, R107, R117, R144, R147: a master period start with the aux requests it inserts or merges and its BUS_STALE record, and the row
BUS_STALE. That BUS_STALE is also a row of its own, and the mark it sets, are the model's (log 5, log 33). -/
def Obligations.MasterPeriodStartAdvancesSequenceAndAges : Prop :=
  (∀ s : State, s.masterDue = true →
    let inserts := fun (a : AuxEntry) => decide (a.divider ≠ 0 ∧ a.wait = 0)
    let inserted := fun (slot : Nat) => s.sched.aux.countP (fun a => inserts a && auxSlot a.source == slot)
    ∃ t : State, exec .masterPeriodStart s = .next t.settle ∧
      t.tb.now = s.tb.now ∧ t.tb.masterSeq = s.tb.masterNextSeq ∧ t.tb.masterNextSeq = s.tb.masterNextSeq + 1 ∧
      t.tb.masterStart = s.tb.masterNext ∧ t.tb.masterNext = addTicks s.tb.masterNext (2 * s.tb.h) ∧
      t.ch = s.ch ∧ t.sup = s.sup ∧ t.power = s.power ∧ t.sched.conv = s.sched.conv ∧
      t.prot.bus = s.prot.bus.map (fun r => { r with age := min 255 (r.age + 1) }) ∧
      t.prot.temp = s.prot.temp.map (fun r => { r with age := min 255 (r.age + 1) }) ∧
      t.prot.spare1 = s.prot.spare1.map (fun r => { r with age := min 255 (r.age + 1) }) ∧
      t.prot.spare2 = s.prot.spare2.map (fun r => { r with age := min 255 (r.age + 1) }) ∧
      t.prot.staleCount =
        (if s.anyRunning = true then min 64 (s.prot.staleCount + 1) else 0) ∧
      (s.sched.aux.length = 4 → t.sched.aux = s.sched.aux.map (fun a =>
        if a.divider = 0 then a
        else if a.wait = 0 then { a with wait := a.divider - 1 }
        else { a with wait := a.wait - 1 })) ∧
      (s.sched.aux.length = 4 →
        (∀ e ∈ s.sched.timeline,
          (inserted e.slot = 0 → e ∈ t.sched.timeline) ∧
            (0 < inserted e.slot →
              { e with merged := e.merged.map (fun n => min 255 (n + inserted e.slot)) } ∈ t.sched.timeline)) ∧
        (∀ i a, s.sched.aux[i]? = some a → inserts a = true → (∀ e ∈ s.sched.timeline, e.slot ≠ auxSlot a.source) →
          (∀ j b, j < i → s.sched.aux[j]? = some b → inserts b = true → b.source ≠ a.source) →
          { slot := auxSlot a.source
            owner := .aux i
            purpose := .aux a.source
            due := addTicks s.tb.masterNext a.instant
            tol := none
            level := s.sched.auxLevel
            seq := s.tb.masterNextSeq
            merged := some (inserted (auxSlot a.source) - 1) } ∈ t.sched.timeline) ∧
        ∀ e ∈ t.sched.timeline, (∃ x ∈ s.sched.timeline, x.slot = e.slot) ∨ 0 < inserted e.slot) ∧
      t.link =
        (if s.anyRunning = true ∧ min 64 (s.prot.staleCount + 1) = 64 ∧ s.prot.staleGiven = false then
          s.link.queueEvent
            { code := .busStale
              chan := none
              seq := t.masterSeqNow
              repeats := 1
              detail := match s.prot.bus with | some b => min 255 (b.age + 1) | none => 255 }
        else s.link) ∧
      ∀ e ∈ s.sched.timeline, e.slot < 9 → e ∈ t.sched.timeline) ∧
  (∀ s : State, s.prot.staleCount = 64 → s.prot.staleGiven = false →
    exec .busStale s =
      .next (((s.modProt (fun p => { p with staleGiven := true })).queueEvent .busStale none
        (match s.prot.bus with | some b => b.age | none => 255)).settle))

/-! ### Period starts and examinations -/

/-- R6, R7, R22, R23: a period start moves the channel's sequence and brings pending live values into force. Then, by state: nothing more in
STOPPED, BRAKING and TRIPPED; the close (R130, which PeriodCloseFormsCurrentsAndCountsOverLimit states), whose currents, counts and report
stay and whose trip ends the work; in VECTOR the setpoint, the staleness and the plans (R43 to R45, R55, R56); in ALIGN, RAMP and CLOSED the
setpoint and the plans (R78, R79), the first plan beginning the run (R83); in CALIBRATING the period count, the timeout and the plans (R37,
R39). With the plans the gates move (R63, R64, R67). That a boundary of the old plan still to be met is met first (log 17), that a step plan
counts as driving the phase that is high now (log 37), and that the timeout of a calibration goes before its plan (log 42), are the model's
readings. -/
def Obligations.ChannelPeriodStartDoesTheWorkOfTheState : Prop :=
  ∀ (c : Chan) (s : State) (t : Time) (m : Seq), s.clockRuns = true → (s.chan c).nextStart = some (t, m) →
    later t s.tb.now = false →
    let k := s.chan c
    let b : Channel :=
      { k with
        seq := m
        latest := some t
        nextStart := some (addTicks t (2 * s.tb.h), m + 1)
        nextHalf := some (halfAfterStart k.nextHalf t s.tb.h)
        active := match k.live with | some l => k.active.withLive l | none => k.active
        sq :=
          match k.live with
          | some l => if k.active.kind = .step then { k.sq with advance := l.advance } else k.sq
          | none => k.sq
        live := none }
    let begun := s.modCh c (fun _ => b)
    let closed := begun.closePeriod c
    let run := exec (.channelPeriodStart c) s
    let record := fun (code : EventCode) (detail : Nat) =>
      ({ code := code, chan := some c, seq := s.masterSeqNow, repeats := 1, detail := detail } : EventRecord)
    let goesOn : State → State → Link → Prop := fun u from' link =>
      run = .next u.settle ∧ u.link = link ∧
        (u.chan c).rb = { (from'.chan c).rb with work := (u.chan c).rb.work } ∧ s.sameChannelsBut u c ∧ u.tb = s.tb ∧
        u.prot = s.prot ∧ u.sup = s.sup ∧ u.power = s.power ∧
        s.plansMoved u c t ∧ s.gatesMoved u c ∧ (u.chan c).state = k.state ∧ (u.chan c).seq = m ∧ (u.chan c).latest = b.latest ∧
        (u.chan c).nextStart = b.nextStart ∧ (u.chan c).nextHalf = b.nextHalf ∧ (u.chan c).active = b.active ∧
        (u.chan c).live = none ∧ (u.chan c).z = k.z ∧ (u.chan c).trip = k.trip
    (k.state = .stopped ∨ k.state = .braking ∨ k.state = .tripped → run = .next begun.settle) ∧
    (k.state.running = true → (closed.chan c).state ≠ k.state → run = .next closed.settle) ∧
    (k.state = .vector → (closed.chan c).state = .vector → (∀ d a, k.slot ≠ some (.step d a)) →
      let vm : VectorMod :=
        match k.slot with
        | some (.vector a w θ) =>
          { amp := a, rate := w, age := 0, marker := false,
            acc := match θ with | some n => n * 65536 | none => (((k.vm.acc : Int) + w) % 201326592).toNat }
        | _ =>
          { k.vm with acc := (((k.vm.acc : Int) + k.vm.rate) % 201326592).toNat, age := min 4095 (k.vm.age + 1) }
      let warned :=
        if b.active.s1 ≤ vm.age ∧ vm.marker = false then closed.link.queueEvent (record .stale vm.age) else closed.link
      (b.active.s2 ≤ vm.age →
        ∃ u : State, run = .next u.settle ∧ (u.chan c).state = .tripped ∧ (u.chan c).slot = none ∧
          (u.chan c).trip = some { first := .stale, seq := s.masterSeqNow, further := 0 } ∧
          (u.chan c).rb = { (closed.chan c).rb with work := none } ∧
          u.link = warned.queueEvent (record .trip TripCause.stale.code)) ∧
      (vm.age < b.active.s2 →
        ∃ u, goesOn u closed warned ∧ (u.chan c).slot = none ∧
          (u.chan c).vm = { vm with marker := vm.marker || decide (b.active.s1 ≤ vm.age) } ∧
          (u.chan c).nextPlan = some (makeVectorPlan b.active s.tb.h vm (m + 1)))) ∧
    (k.state = .align ∨ k.state = .ramp → (closed.chan c).state = k.state →
      ∀ g, k.sq.profile[k.sq.seg]? = some (some g) →
        let first := k.curPlan = none ∧ ∃ n x, k.nextPlan = some n ∧ n.body = .step x
        ∃ u, goesOn u closed closed.link ∧ (u.chan c).slot = k.slot ∧
          (u.chan c).nextPlan =
            some (makeStepPlan b.active s.tb.h s.tb.d k.sq.index g.duty (decide (k.state = .ramp)) (m + 1)) ∧
          (¬first → (u.chan c).sq = b.sq) ∧
          (first → g.kind = .align →
            (u.chan c).sq =
              { b.sq with
                compare := some { due := addTicks t (g.repeats * g.t0 * 800), kind := .forced, reached := false } }) ∧
          (first → g.kind = .ramp →
            (u.chan c).sq =
              { b.sq with
                lastComm := some t
                blanking := b.active.blanking
                found := false
                compare := some { due := addTicks t (g.stepTicks 0), kind := .forced, reached := false } })) ∧
    (k.state = .closed → (closed.chan c).state = .closed → k.curPlan ≠ none →
      let q : StepSeq :=
        match k.slot with
        | some (.step d a) => { b.sq with duty := d, advance := match a with | some n => n | none => b.sq.advance }
        | _ => b.sq
      ∃ u, goesOn u closed closed.link ∧ (u.chan c).sq = q ∧
        (u.chan c).slot = (match k.slot with | some (.step _ _) => none | x => x) ∧
        (u.chan c).nextPlan = some (makeStepPlan b.active s.tb.h s.tb.d q.index q.duty true (m + 1))) ∧
    (k.state = .calibrating →
      let n := min 256 (k.calPeriods + 1)
      let counted := begun.modCh c (fun x => { x with calPeriods := n })
      (n = 256 → k.calResults < 64 → ∃ u, counted.endsCalibration u c k.z .calFailed 1 ∧ run = .next u.settle) ∧
      (n < 256 ∨ 64 ≤ k.calResults →
        ∃ u, goesOn u s s.link ∧ (u.chan c).calPeriods = n ∧ (u.chan c).calSum = k.calSum ∧
          (u.chan c).calResults = k.calResults ∧ (u.chan c).slot = k.slot ∧
          (u.chan c).nextPlan = some (makeCalPlan b.active s.tb.h (m + 1))))

/-- R38, R39, R55, R56, R97, R132, R133, R171: each threshold, met, has its effect. The rows that stand for one examination are a
choice of the model (log 5). -/
def Obligations.ThresholdsHaveTheirEffects : Prop :=
  ∀ (c : Chan) (s : State),
    let k := s.chan c
    (k.state = .vector → k.active.s1 ≤ k.vm.age → k.vm.marker = false →
      exec (.stale c) s =
        .next (((s.modCh c (fun x => { x with vm := { x.vm with marker := true } })).queueEvent .stale (some c)
          k.vm.age).settle)) ∧
    (k.state = .vector → k.active.s2 ≤ k.vm.age → exec (.staleTrip c) s = .next ((s.reachCause c .stale).settle)) ∧
    (k.state = .calibrating → 256 ≤ k.calPeriods → k.calResults < 64 →
      ∃ t, s.endsCalibration t c k.z .calFailed 1 ∧ exec (.calTimeout c) s = .next t.settle) ∧
    (k.state = .calibrating → 64 ≤ k.calResults →
      let z := (k.calSum + 32) / 64
      ∃ t, exec (.calDone c) s = .next t.settle ∧
        (1648 ≤ z ∧ z ≤ 2448 → s.endsCalibration t c z .calDone z) ∧
        (z < 1648 ∨ 2448 < z → s.endsCalibration t c k.z .calFailed 0)) ∧
    (k.state = .closed → k.active.missLimit ≤ k.sq.miss →
      exec (.lostSync c) s = .next ((s.reachCause c .lostSync).settle)) ∧
    (k.state.running = true → k.active.limitPeriods ≤ k.rb.overCount →
      exec (.currentLimit c) s = .next ((s.reachCause c .currentLimit).settle)) ∧
    (∀ w, k.state.running = true → k.rb.work = some w → 1 ≤ k.active.report → k.active.report ≤ k.rb.report →
      ∃ u bytes, exec (.periodReport c) s = .next u.settle ∧ bytes = s.reportPayload c w ∧
        u.chan c = { k with rb := { k.rb with report := 0 } } ∧ s.sameChannelsBut u c ∧
        (s.link.out.any (·.isReport c) = true →
          u.link.out = s.link.out.map (fun f => if f.isReport c then .report c bytes else f) ∧
            u.link.replaced.get c = min 65535 (s.link.replaced.get c + 1)) ∧
        (s.link.out.any (·.isReport c) = false → s.link.out.length < 24 →
          u.link.out = s.link.out ++ [.report c bytes]) ∧
        (s.link.out.any (·.isReport c) = false → 24 ≤ s.link.out.length →
          u.link.out = s.link.out ∧ u.link.skipped.get c = min 65535 (s.link.skipped.get c + 1)))

/-- R30, R137 to R140: a trip cause that reaches a driving channel. -/
def Obligations.TripPutsADrivingChannelIntoItsSafeState : Prop :=
  ∀ (s : State) (c : Chan) (k : TripCause), (s.chan c).state.driving = true →
    let t := s.reachCause c k
    let safe := if k = .faultInput then SafeState.openAll else (s.chan c).active.safe
    (t.chan c).state = .tripped ∧ (t.chan c).safe = some safe ∧
      (t.chan c).trip = some { first := k, seq := s.masterSeqNow, further := 0 } ∧
      (t.chan c).nextPlan = none ∧ (t.chan c).curPlan = none ∧ (t.chan c).sq.compare = none ∧
      (t.chan c).rb.work = none ∧ t.sched.waiting c = 0 ∧
      (t.chan c).flushed = (s.chan c).flushed + BitVec.ofNat 32 (s.sched.waiting c) ∧
      (∀ x, ((t.chan c).gates.get x).top = false ∨ ((s.chan c).state = .braking ∧ safe = .short)) ∧
      (safe = .openAll → ∀ x, ((t.chan c).gates.get x).bottom = false ∧ ((t.chan c).gates.get x).bottomPend = none ∧
        ((t.chan c).gates.get x).topPend = none) ∧
      (safe = .short → (s.chan c).state ≠ .braking →
        Gates.bottomsEntered (s.chan c).gates (t.chan c).gates s.tb.now s.tb.d) ∧
      (safe = .short → (s.chan c).state = .braking → (t.chan c).gates = (s.chan c).gates) ∧
      (t.chan c).slot = (s.chan c).slot ∧ (t.chan c).z = (s.chan c).z ∧ (t.chan c).active = (s.chan c).active ∧
      s.sameChannelsBut t c ∧ t.tb = s.tb ∧ t.sched.conv = s.sched.conv ∧
      t.link = s.link.queueEvent { code := .trip, chan := some c, seq := s.masterSeqNow, repeats := 1, detail := k.code }

/-! ### The step sequencer -/

/-- R7, R84: a half-period point without a due compare. R69, R85: the commutation that a due compare brings, on the sequencer, the plan's
roles and the six gates. R86, R87: a FORCED run. R96, R97: CLOSED. R84: the due instant itself. That
the forced step number is 0 on entering an ALIGN segment is the model's choice (log 44). -/
def Obligations.HalfPeriodPointAppliesADueCompare : Prop :=
  (∀ (c : Chan) (s : State) (p : HalfPoint), s.clockRuns = true → (s.chan c).nextHalf = some p →
    later p.time s.tb.now = false →
    ((s.chan c).sq.compare = none ∨ ∃ x, (s.chan c).sq.compare = some x ∧ notBefore p.time x.due = false) →
    exec (.halfPeriodPoint c) s =
      .next ((s.modCh c (fun k =>
        { k with
          nextHalf :=
            if p.peak then k.nextStart.map (fun x => { time := x.1, peak := false })
            else some { time := addTicks p.time s.tb.h, peak := true } })).settle)) ∧
  (∀ (c : Chan) (s : State) (p : HalfPoint) (x : Compare), s.clockRuns = true → (s.chan c).nextHalf = some p →
    later p.time s.tb.now = false → (s.chan c).sq.compare = some x → notBefore p.time x.due = true →
    let k := s.chan c
    let q := k.sq
    let run := exec (.halfPeriodPoint c) s
    let record := fun (code : EventCode) (detail : Nat) =>
      ({ code := code, chan := some c, seq := s.masterSeqNow, repeats := 1, detail := detail } : EventRecord)
    let next := match q.dir with | .forward => (q.index + 1) % 6 | .reverse => (q.index + 5) % 6
    let stepped : StepSeq :=
      { q with
        index := next
        lastComm := some p.time
        blanking := k.active.blanking
        found := false
        prev := none
        compare := none }
    let compare := fun (kind : CompareKind) (n : Nat) =>
      some ({ due := addTicks p.time n, kind := kind, reached := false } : Compare)
    let qualified := if k.state = .align ∨ q.found = false then 0 else q.qualified
    let conv := s.sched.conv.map (fun v => if v.entry.owner = .chan c then { v with commutated := true } else v)
    let goesOn : State → Prop := fun v =>
      run = .next v.settle ∧ s.sameChannelsBut v c ∧ v.tb = s.tb ∧ v.prot = s.prot ∧ v.sup = s.sup ∧
        (v.chan c).nextPlan = k.nextPlan ∧ (v.chan c).active = k.active ∧ (v.chan c).slot = k.slot
    let commutated : State → Prop := fun v =>
      v.sched = { s.sched with conv := conv } ∧ (v.chan c).curPlan = k.curPlan.map (·.withIndex next) ∧
        ∀ r b, k.curPlan = some r → r.body = .step b → ∀ y,
          let old := k.gates.get y
          let new := (v.chan c).gates.get y
          let stays := (highPhase q.index = y ∧ highPhase next = y) ∨ (lowPhase q.index = y ∧ lowPhase next = y) ∨
            (floatPhase q.index = y ∧ floatPhase next = y)
          (stays → new = old) ∧
          (¬stays → floatPhase next = y →
            new.top = false ∧ new.bottom = false ∧ new.topPend = none ∧ new.bottomPend = none) ∧
          (¬stays → lowPhase next = y →
            new.top = false ∧ new.topPend = none ∧ new.bottom = old.bottom ∧
              (old.bottom = false → new.bottomPend = some (addTicks s.tb.now s.tb.d))) ∧
          (¬stays → highPhase next = y →
            new.bottom = false ∧ new.bottomPend = none ∧ new.top = old.top ∧
              (p.peak = true → s.tb.d < s.tb.h - b.cmp.c → old.top = false →
                new.topPend = some (addTicks s.tb.now s.tb.d)) ∧
              (p.peak = false ∨ s.tb.h - b.cmp.c ≤ s.tb.d → new.topPend = old.topPend))
    let stands : State → Prop := fun v =>
      v.sched = s.sched ∧ (v.chan c).curPlan = k.curPlan ∧ (v.chan c).gates = k.gates
    (∀ g, k.state = .ramp → q.profile[q.seg]? = some (some g) → q.j + 1 < g.repeats →
      ∃ v, goesOn v ∧ commutated v ∧ v.link = s.link ∧ (v.chan c).state = .ramp ∧
        (v.chan c).sq =
          { stepped with j := q.j + 1, qualified := qualified, compare := compare .forced (g.stepTicks (q.j + 1)) }) ∧
    (k.state = .align ∨ (k.state = .ramp ∧ ∃ g, q.profile[q.seg]? = some (some g) ∧ g.repeats ≤ q.j + 1) →
      (∀ f, q.seg < q.last → q.profile[q.seg + 1]? = some (some f) →
        (k.state = .align → f.kind = .align →
          ∃ v, goesOn v ∧ stands v ∧ v.link = s.link ∧ (v.chan c).state = .align ∧
            (v.chan c).sq =
              { q with
                seg := q.seg + 1, j := 0, qualified := 0, compare := compare .forced (f.repeats * f.t0 * 800) }) ∧
        (k.state = .ramp ∨ f.kind = .ramp →
          ∃ v, goesOn v ∧ commutated v ∧ v.link = s.link ∧
            (v.chan c).state = (match f.kind with | .align => .align | .ramp => .ramp) ∧
            (v.chan c).sq =
              { stepped with
                seg := q.seg + 1
                j := 0
                qualified := qualified
                compare :=
                  compare .forced (match f.kind with | .align => f.repeats * f.t0 * 800 | .ramp => f.stepTicks 0) })) ∧
      (q.last ≤ q.seg →
        ∃ v, run = .next v.settle ∧ s.sameChannelsBut v c ∧ v.tb = s.tb ∧ v.prot = s.prot ∧ v.sup = s.sup ∧
          v.sched.conv = s.sched.conv ∧ v.sched.waiting c = 0 ∧
          (v.chan c).flushed = k.flushed + BitVec.ofNat 32 (s.sched.waiting c) ∧ (v.chan c).state = .stopped ∧
          (v.chan c).trip = k.trip ∧ (v.chan c).slot = k.slot ∧ (v.chan c).curPlan = none ∧
          (v.chan c).nextPlan = none ∧ (v.chan c).sq = { q with compare := none, qualified := qualified } ∧
          (∀ y, ((v.chan c).gates.get y).top = false ∧ ((v.chan c).gates.get y).bottom = false ∧
            ((v.chan c).gates.get y).topPend = none ∧ ((v.chan c).gates.get y).bottomPend = none) ∧
          v.link = s.link.queueEvent (record .startFailed q.last))) ∧
    (k.state = .closed →
      let blind := compare .blind (q.t60 * q.p)
      let miss := min 7 (q.miss + 1)
      (x.kind ≠ .blind →
        ∃ v, goesOn v ∧ commutated v ∧ v.link = s.link ∧ (v.chan c).state = .closed ∧
          (v.chan c).sq = { stepped with compare := blind }) ∧
      (x.kind = .blind → miss < k.active.missLimit →
        ∃ v, goesOn v ∧ commutated v ∧ v.link = s.link.queueEvent (record .blindStep miss) ∧
          (v.chan c).state = .closed ∧ (v.chan c).sq = { stepped with compare := blind, miss := miss }) ∧
      (x.kind = .blind → k.active.missLimit ≤ miss →
        ∃ v, run = .next v.settle ∧ s.sameChannelsBut v c ∧ v.tb = s.tb ∧ v.sched.waiting c = 0 ∧
          (v.chan c).state = .tripped ∧ (v.chan c).safe = some k.active.safe ∧
          (v.chan c).trip = some { first := .lostSync, seq := s.masterSeqNow, further := 0 } ∧
          (v.chan c).sq = { stepped with miss := miss } ∧ (v.chan c).curPlan = none ∧ (v.chan c).nextPlan = none ∧
          v.link =
            (s.link.queueEvent (record .blindStep miss)).queueEvent (record .trip TripCause.lostSync.code)))) ∧
  (∀ (c : Chan) (s : State) (x : Compare), s.clockRuns = true → (s.chan c).sq.compare = some x → x.reached = false →
    later x.due s.tb.now = false →
    exec (.commutationDue c) s =
      .next ((s.modCh c (fun k =>
        { k with sq := { k.sq with compare := some { x with reached := true } } })).settle))

/-- R92, R93, R95: the Q-th consecutive qualifying crossing hands over, with its event record. That the row HANDOVER carries the crossing
instant, and the conditions under which such a crossing can be found, are the model's choice (log 5). -/
def Obligations.HandoverClosesTheLoop : Prop :=
  ∀ (c : Chan) (s : State) (tzc u v w : Time) (e : Int) (b : AuxResult) (r : Plan) (x : Compare) (g : Segment),
    let k := s.chan c
    let q := k.sq
    k.state = .ramp → k.curPlan = some r → q.compare = some x → x.reached = false → q.found = false →
    s.prot.bus = some b → b.age < 4 → q.blanking = 0 → q.prev = some (w, e) →
    notBefore tzc w = true → notBefore s.tb.now tzc = true → q.lastComm = some u → q.lastZc = some v →
    q.profile[q.seg]? = some (some g) → k.active.q ≤ q.qualified + 1 → k.active.q ≤ 15 →
    g.stepTicks q.j / 4 ≤ ticksSince tzc u → ticksSince tzc u ≤ 3 * g.stepTicks q.j / 4 →
    ticksSince tzc v ≤ 6291455 →
    ∃ (t : State) (p : Nat), exec (.handover c tzc) s = .next t.settle ∧ s.sameChannelsBut t c ∧ (t.chan c).state = .closed ∧
      p ∈ prescalers ∧ ticksSince tzc v / p ≤ 49151 ∧ (∀ r ∈ prescalers, r < p → 49151 < ticksSince tzc v / r) ∧
      (t.chan c).sq =
        { q with
          found := true
          lastZc := some tzc
          qualified := min 15 (q.qualified + 1)
          t60 := ticksSince tzc v / p
          p := p
          duty := g.duty
          miss := 0
          compare :=
            some
              { due := addTicks tzc (ticksSince tzc v / p * p * (32 - q.advance) / 64)
                kind := .predicted
                reached := false } } ∧
      (t.chan c).curPlan = k.curPlan ∧ (t.chan c).nextPlan = k.nextPlan ∧ (t.chan c).gates = k.gates ∧
      t.link =
        s.link.queueEvent
          { code := .handover, chan := some c, seq := s.masterSeqNow, repeats := 1, detail := ticksSince tzc v / p }

/-- R88 to R91, R94, R95: what a sense result does to the sequencer of a channel in RAMP or CLOSED, where a test of R88 or the want of a bus
result (R89) discards it; in CLOSED a crossing is measured as ClosedCrossingMeasuresT60 states. R92, R93: in RAMP a crossing that is early
or lies outside the middle half of its forced step returns the qualified-step count to 0, one inside it raises the count, and at Q it hands
over where its interval fits a prescaler. -/
def Obligations.SenseResultsAreReferencedBlankedAndClassified : Prop :=
  let floats : State → Chan → Nat := fun s c =>
    (match c with | .m1 => 3 | .m2 => 6 | .m3 => 9) +
      (match floatPhase (s.chan c).sq.index with | .u => 0 | .v => 1 | .w => 2)
  (∀ (raw : BitVec 12) (s : State) (v : Conversion) (c : Chan),
    s.sched.conv = some v → v.left = 0 → v.entry.owner = .chan c → v.entry.purpose = .sense →
    ((s.chan c).state ≠ .ramp ∧ (s.chan c).state ≠ .closed) ∨ (s.chan c).curPlan = none ∨
      (∃ p, (s.chan c).curPlan = some p ∧ p.seq ≠ v.entry.seq) ∨
      (∃ u, (s.chan c).sq.lastComm = some u ∧ later v.start u = false ∧ (v.start ≠ u ∨ v.input ≠ floats s c)) ∨
      s.prot.bus = none →
    ∃ t, exec (.conversionComplete raw) s = .next t ∧ s.sameChannelsBut t c ∧ (t.chan c).sq = (s.chan c).sq ∧
      (t.chan c).state = (s.chan c).state ∧ (t.chan c).converted = (s.chan c).converted + 1 ∧
      (t.chan c).gates = (s.chan c).gates) ∧
  ∀ (raw : BitVec 12) (s : State) (v : Conversion) (c : Chan) (p : Plan) (u : Time) (b : AuxResult),
    s.sched.conv = some v → v.left = 0 → v.entry.owner = .chan c → v.entry.purpose = .sense →
    (s.chan c).state = .ramp ∨ (s.chan c).state = .closed → (s.chan c).curPlan = some p → p.seq = v.entry.seq →
    (s.chan c).sq.lastComm = some u → later v.start u = true ∨ (v.start = u ∧ v.input = floats s c) → s.prot.bus = some b →
    let q := (s.chan c).sq
    let d : Int := (raw.toNat : Int) - (b.raw / 2 : Nat)
    let rising := (q.dir = .forward ∧ q.index % 2 = 1) ∨ (q.dir = .reverse ∧ q.index % 2 = 0)
    let after := (rising ∧ 0 ≤ d) ∨ (¬rising ∧ d ≤ 0)
    let shut := q.found = true ∨ ∃ x, q.compare = some x ∧ x.reached = true
    ∃ t, exec (.conversionComplete raw) s = .next t ∧ s.sameChannelsBut t c ∧
      (t.chan c).converted = (s.chan c).converted + 1 ∧ (t.chan c).gates = (s.chan c).gates ∧
      (shut ∨ 4 ≤ b.age → (t.chan c).sq = q) ∧
      (¬shut → b.age < 4 → 0 < q.blanking → (t.chan c).sq = { q with blanking := q.blanking - 1 }) ∧
      (¬shut → b.age < 4 → q.blanking = 0 → ¬after → (t.chan c).sq = { q with prev := some (v.start, d) }) ∧
      (¬shut → b.age < 4 → q.blanking = 0 → after →
        (t.chan c).sq.found = true ∧
          (q.prev = none → (t.chan c).sq.lastZc = some v.start) ∧
          (∀ w e, q.prev = some (w, e) →
            (t.chan c).sq.lastZc =
              some (addTicks w (ticksSince v.start w * e.natAbs / (e.natAbs + d.natAbs)))) ∧
          ((s.chan c).state = .closed →
            let zc :=
              match q.prev with
              | some (w, e) => addTicks w (ticksSince v.start w * e.natAbs / (e.natAbs + d.natAbs))
              | none => v.start
            (t.chan c).state = .closed ∧ (t.chan c).sq.miss = 0 ∧ (t.chan c).sq = ((s.closedCrossing c zc).chan c).sq) ∧
          ∀ g, (s.chan c).state = .ramp → q.profile[q.seg]? = some (some g) → (s.chan c).active.q ≤ 15 →
            let ramp := fun (zc : Time) (n : Nat) =>
              (t.chan c).state = .ramp ∧ (t.chan c).sq = { q with found := true, lastZc := some zc, qualified := n }
            (q.prev = none → ramp v.start 0) ∧
            (∀ w e, q.prev = some (w, e) →
              let zc := addTicks w (ticksSince v.start w * e.natAbs / (e.natAbs + d.natAbs))
              let inside := g.stepTicks q.j / 4 ≤ ticksSince zc u ∧ ticksSince zc u ≤ 3 * g.stepTicks q.j / 4
              (¬inside → ramp zc 0) ∧
              (inside → q.qualified + 1 < (s.chan c).active.q → ramp zc (q.qualified + 1)) ∧
              (∀ x, inside → (s.chan c).active.q ≤ q.qualified + 1 → q.lastZc = some x →
                (ticksSince zc x ≤ 6291455 →
                  (t.chan c).state = .closed ∧ (t.chan c).sq.qualified = min 15 (q.qualified + 1)) ∧
                (6291455 < ticksSince zc x → ramp zc 0))))

/-! ### Currents -/

/-- R126 to R132: the close of a period forms the phase currents of its results and counts against the current limit, and trips at the limit
periods. After a live change that lowers the limit periods to the count or below, the close trips whatever its currents were (R132); that
the count that stands before the close shows such a change is the model's reading (log 43). R133, R135, R171: the report count, and the
report that a due count hands over before the trip. R134, R180: the bytes of a report; that the lateness of a SENSE result is kept (log 26),
and that the age of an absent bus result is free (log 8), are the model's. -/
def Obligations.PeriodCloseFormsCurrentsAndCountsOverLimit : Prop :=
  (∀ (w : WorkRecord) (v : VectorPlan) (z : Nat), w.plan.body = .vector v → v.first ≠ v.middle → v.first ≠ v.last →
    v.middle ≠ v.last →
    let x := formCurrents w z
    (∀ a b, w.placeA.raw = some a → w.placeB.raw = some b →
      x.get v.first = { value := (a : Int) - z, valid := true } ∧
        x.get v.last = { value := (z : Int) - b, valid := true } ∧
        x.get v.middle = { value := (b : Int) - a, valid := true }) ∧
    (∀ a, w.placeA.raw = some a → w.placeB.raw = none →
      x.get v.first = { value := (a : Int) - z, valid := true } ∧
        x.get v.middle = .invalid ∧ x.get v.last = .invalid) ∧
    (∀ b, w.placeA.raw = none → w.placeB.raw = some b →
      x.get v.last = { value := (z : Int) - b, valid := true } ∧
        x.get v.first = .invalid ∧ x.get v.middle = .invalid) ∧
    (w.placeA.raw = none → w.placeB.raw = none → ∀ y, x.get y = .invalid)) ∧
  (∀ (w : WorkRecord) (p : StepPlan) (z a i : Nat) (fl : Bool), w.plan.body = .step p → w.placeA.raw = some a →
    w.sampled = some (i, fl) →
    (formCurrents w z).get (highPhase i) = { value := (a : Int) - z, valid := true } ∧
      (formCurrents w z).get (lowPhase i) = { value := (z : Int) - a, valid := true } ∧
      (formCurrents w z).get (floatPhase i) = { value := 0, valid := fl }) ∧
  (∀ (w : WorkRecord) (p : StepPlan) (z : Nat), w.plan.body = .step p → w.placeA.raw = none →
    ∀ y, (formCurrents w z).get y = { value := 0, valid := false }) ∧
  (∀ (s : State) (c : Chan) (w : WorkRecord), (s.chan c).rb.work = some w →
    let k := s.chan c
    let t := (s.closePeriod c).chan c
    let x := formCurrents w k.z
    let high := ∃ y, (x.get y).valid = true ∧ k.active.curLimit < (x.get y).value.natAbs
    let whole := ∀ y, (x.get y).valid = true
    t.rb.cur = x ∧ t.rb.curSeq = some w.plan.seq ∧
      (high → t.rb.overCount = min 15 (k.rb.overCount + 1)) ∧
      (¬high → whole → t.rb.overCount = 0) ∧
      (¬high → ¬whole → t.rb.overCount = k.rb.overCount) ∧
      (k.state.running = true → k.active.limitPeriods ≤ t.rb.overCount ∨ k.active.limitPeriods ≤ k.rb.overCount →
        t.state = .tripped ∧ t.trip = some { first := .currentLimit, seq := s.masterSeqNow, further := 0 }) ∧
      (k.state.running = false ∨ (t.rb.overCount < k.active.limitPeriods ∧ k.rb.overCount < k.active.limitPeriods) →
        t.state = k.state ∧ t.trip = k.trip ∧ t.gates = k.gates) ∧
      let due := k.active.report ≠ 0 ∧ k.active.report ≤ k.rb.report + 1
      let bytes :=
        (s.modCh c (fun y => { y with rb := { y.rb with cur := x, curSeq := some w.plan.seq, overCount := t.rb.overCount } })).reportPayload
          c w
      let handed : Link :=
        if s.link.out.any (·.isReport c) = true then
          { s.link with
            out := s.link.out.map (fun f => if f.isReport c = true then .report c bytes else f)
            replaced := s.link.replaced.set c (min 65535 (s.link.replaced.get c + 1)) }
        else if s.link.out.length < 24 then { s.link with out := s.link.out ++ [.report c bytes] }
        else { s.link with skipped := s.link.skipped.set c (min 65535 (s.link.skipped.get c + 1)) }
      let reported := if due then handed else s.link
      (k.active.report = 0 ∨ due → t.rb.report = 0) ∧
        (k.active.report ≠ 0 → k.rb.report + 1 < k.active.report → t.rb.report = k.rb.report + 1) ∧
        (t.state = k.state → (s.closePeriod c).link = reported) ∧
        (k.state.running = true → t.state = .tripped →
          (s.closePeriod c).link =
            reported.queueEvent
              { code := .trip, chan := some c, seq := s.masterSeqNow, repeats := 1, detail := TripCause.currentLimit.code })) ∧
  (∀ (s : State) (c : Chan) (w : WorkRecord), ∃ free : Byte,
    let k := s.chan c
    let b := fun (n : Nat) => BitVec.ofNat 8 n
    let w2 := fun (n : Nat) => [b n, b (n / 256)]
    let w4 := fun (n : Nat) => [b n, b (n / 256), b (n / 65536), b (n / 16777216)]
    let bit := fun (weight : Nat) (x : Bool) => if x = true then weight else 0
    let current := fun (x : Current) => w2 (BitVec.ofInt 16 x.value).toNat
    let outcome : Place → Nat := fun x =>
      match x with | .notPlaced => 0 | .converted _ _ _ => 1 | .sensed _ => 1 | .late => 2 | .waiting => 3
    let lateness : Place → Nat := fun x => match x with | .converted _ _ n => n | .sensed n => n | _ => 0
    s.reportPayload c w =
      [match c with | .m1 => (1 : Byte) | .m2 => 2 | .m3 => 3] ++
        [match k.active.kind with | .vector => (0 : Byte) | .step => 1] ++
        [b (match k.state with
          | .unconfigured => 0 | .stopped => 1 | .calibrating => 2 | .vector => 3 | .align => 4
          | .ramp => 5 | .closed => 6 | .braking => 7 | .tripped => 8)] ++
        w2 w.plan.seq.toNat ++ w4 w.start.toNat ++ w2 s.masterSeqNow.toNat ++ current k.rb.cur.u ++ current k.rb.cur.v ++
        current k.rb.cur.w ++ [b (bit 1 k.rb.cur.u.valid + bit 2 k.rb.cur.v.valid + bit 4 k.rb.cur.w.valid)] ++
        [b (match w.plan.body with
          | .vector p => bit 1 p.stretchedFirst + bit 2 p.stretchedLast + bit 4 p.shortA + bit 8 p.shortB
          | .step p => bit 4 p.shortA + bit 16 p.senseShort
          | .cal => 0)] ++
        [b (outcome w.placeA), b (outcome w.placeB)] ++ w2 (lateness w.placeA) ++ w2 (lateness w.placeB) ++
        [b k.rb.overCount] ++ (match s.prot.bus with | some a => w2 a.raw ++ [b a.age] | none => [0xFF, 0xFF, free]) ++
        (match w.plan.body with
          | .vector p => w2 p.angleInt ++ w2 p.angleFrac ++ w2 p.amp ++ w2 p.winA ++ w2 p.winB
          | .step p => [match w.sampled with | some (i, _) => b i | none => 0xFF] ++ w2 p.duty
          | .cal => []))

/-! ### Gates -/

/-- R63 to R65, R67: a boundary of a phase in the current plan, of a vector plan or the high phase of a step plan, with the intervals that
are absorbed; and a turn-on after its dead time, counted with the D in force at the turn-off: one that comes before waits for the end of the
dead time, and one whose complement is on is dropped, which no run reaches (log 31). That the next step plan counts as driving
the phase that is high now is the model's reading (log 37). -/
def Obligations.GateEdgesKeepDeadTime : Prop :=
  (∀ (c : Chan) (x : Phase) (s : State) (p : Plan) (t0 : Time) (n : Nat), s.clockRuns = true →
    (s.chan c).curPlan = some p → (s.chan c).latest = some t0 →
    let a := (s.chan c).gates.get x
    ((∃ v, p.body = .vector v ∧ ((a.edges = 0 ∧ n = v.up.get x) ∨ (a.edges = 1 ∧ n = 2 * s.tb.h - v.dn.get x))) ∨
      ∃ t, p.body = .step t ∧ x = highPhase t.index ∧
        ((a.edges = 0 ∧ n = t.cmp.c) ∨ (a.edges = 1 ∧ n = 2 * s.tb.h - t.cmp.c))) →
    later (addTicks t0 n) s.tb.now = false →
    ∃ b, p.edgeMet (s.chan c).nextPlan x s.tb.h s.tb.d s.tb.now a b ∧
      exec (.gateEdge c x) s = .next (s.modCh c (fun k => { k with gates := k.gates.set x b })).settle) ∧
  (∀ (c : Chan) (x : Phase) (s : State) (at' : Time), s.clockRuns = true → later at' s.tb.now = false →
    (((s.chan c).gates.get x).topPend = some at' → ((s.chan c).gates.get x).bottom = false →
      (∀ o, ((s.chan c).gates.get x).bottomOff = some o → o.d ≤ ticksSince s.tb.now o.time) →
      ∃ u, exec (.pendingTurnOn c x .top) s = .next u ∧ s.sameChannelsBut u c ∧
        (u.chan c).gates.get x = { (s.chan c).gates.get x with top := true, topPend := none }) ∧
    (((s.chan c).gates.get x).bottomPend = some at' → ((s.chan c).gates.get x).top = false →
      (∀ o, ((s.chan c).gates.get x).topOff = some o → o.d ≤ ticksSince s.tb.now o.time) →
      ∃ u, exec (.pendingTurnOn c x .bottom) s = .next u ∧ s.sameChannelsBut u c ∧
        (u.chan c).gates.get x = { (s.chan c).gates.get x with bottom := true, bottomPend := none }) ∧
    (((s.chan c).gates.get x).topPend = some at' →
      (((s.chan c).gates.get x).bottom = true →
        ∃ u, exec (.pendingTurnOn c x .top) s = .next u ∧ s.sameChannelsBut u c ∧
          (u.chan c).gates.get x = { (s.chan c).gates.get x with topPend := none }) ∧
      (∀ o, ((s.chan c).gates.get x).bottom = false → ((s.chan c).gates.get x).bottomOff = some o →
        ticksSince s.tb.now o.time < o.d →
        ∃ u, exec (.pendingTurnOn c x .top) s = .next u ∧ s.sameChannelsBut u c ∧
          (u.chan c).gates.get x = { (s.chan c).gates.get x with topPend := some (addTicks o.time o.d) })) ∧
    (((s.chan c).gates.get x).bottomPend = some at' →
      (((s.chan c).gates.get x).top = true →
        ∃ u, exec (.pendingTurnOn c x .bottom) s = .next u ∧ s.sameChannelsBut u c ∧
          (u.chan c).gates.get x = { (s.chan c).gates.get x with bottomPend := none }) ∧
      (∀ o, ((s.chan c).gates.get x).top = false → ((s.chan c).gates.get x).topOff = some o →
        ticksSince s.tb.now o.time < o.d →
        ∃ u, exec (.pendingTurnOn c x .bottom) s = .next u ∧ s.sameChannelsBut u c ∧
          (u.chan c).gates.get x = { (s.chan c).gates.get x with bottomPend := some (addTicks o.time o.d) })))

/-! ### Converter -/

/-- R108, R109, R112, R113: a start takes the chosen entry from the timeline and reads its input (R74, R101), and an expiry removes one as
LATE, which the working record of its plan notes at its place (R125). -/
def Obligations.ConversionStartsOrTheEntryIsLate : Prop :=
  (∀ (s : State) (e : Entry), s.clockRuns = true → s.sched.conv = none →
    arbiter (s.sched.timeline.filter (fun x => notBefore s.tb.now x.due)) = some e →
    ∃ input : Nat,
      exec .conversionStart s =
        .next (({ s with
          sched :=
            { s.sched with
              timeline := s.sched.timeline.erase e
              conv := some { entry := e, start := s.tb.now, input := input, left := 72, commutated := false } } } :
          State).settle) ∧
      (∀ c, e.owner = .chan c →
        (e.purpose = .shuntA ∨ e.purpose = .shuntB ∨ e.purpose = .cal →
          input = (match c with | .m1 => 0 | .m2 => 1 | .m3 => 2)) ∧
        (e.purpose = .sense →
          input = (match c with | .m1 => 3 | .m2 => 6 | .m3 => 9) +
            (match floatPhase (s.chan c).sq.index with | .u => 0 | .v => 1 | .w => 2))) ∧
      ∀ i a, e.owner = .aux i → e.purpose = .aux a →
        input = (match a with | .bus => 12 | .temp => 13 | .spare1 => 14 | .spare2 => 15)) ∧
  (∀ (s : State) (slot tol : Nat) (c : Chan) (e : Entry), s.clockRuns = true →
    s.sched.timeline.find? (fun x => x.slot == slot) = some e → e.owner = .chan c → e.tol = some tol →
    later (addTicks e.due tol) s.tb.now = false →
    ∃ t, exec (.late slot) s = .next t ∧ t.sched.timeline = s.sched.timeline.erase e ∧ t.sched.conv = s.sched.conv ∧
      s.sameChannelsBut t c ∧ (t.chan c).late = (s.chan c).late + 1 ∧
      (t.chan c).requested = (s.chan c).requested ∧ (t.chan c).sq = (s.chan c).sq ∧
      (t.chan c).calResults = (s.chan c).calResults ∧ (t.chan c).gates = (s.chan c).gates ∧
      ((s.chan c).rb.work = none → (t.chan c).rb = (s.chan c).rb) ∧
      ∀ w, (s.chan c).rb.work = some w →
        let noted := fun (x : WorkRecord) => (t.chan c).rb = { (s.chan c).rb with work := some x }
        (w.plan.seq ≠ e.seq ∨ e.purpose = .cal → noted w) ∧
        (w.plan.seq = e.seq →
          (e.purpose = .shuntA → noted { w with placeA := .late }) ∧
          (e.purpose = .shuntB ∨ e.purpose = .sense → noted { w with placeB := .late })))

/-- R110, R111, R37, R125, R129, R144 to R146: a completion counts for its channel and reaches its owner: a shunt result its place in the
working record of its plan, an aux result the latest results; a bus or temperature result sends its cause to the channels, and the event
records are queued. A SENSE result has a statement of its own. That a CAL result counts only while its plan is current is the model's
reading (log 15), and that the ticks left pass first its choice (log 2). -/
def Obligations.ConversionCompletesAndReachesItsOwner : Prop :=
  ∀ (raw : BitVec 12) (s : State) (v : Conversion), s.sched.conv = some v →
    let begun := s.elapse v.left
    let latest := fun (m : Nat) => some ({ raw := raw.toNat, merged := m, age := 0 } : AuxResult)
    ∃ t : State, exec (.conversionComplete raw) s = .next t.settle ∧ t.sched.conv = none ∧
      (∀ c, (t.chan c).converted = (s.chan c).converted + (if v.entry.owner = .chan c then 1 else 0)) ∧
      (∀ c, v.entry.owner = .chan c → v.entry.purpose = .cal → (s.chan c).state = .calibrating →
        (∃ p, (s.chan c).curPlan = some p ∧ p.seq = v.entry.seq) →
        (t.chan c).calSum = (s.chan c).calSum + raw.toNat ∧ (t.chan c).calResults = (s.chan c).calResults + 1) ∧
      (∀ c, v.entry.owner = .chan c → v.entry.purpose = .cal → (s.chan c).state ≠ .calibrating →
        (t.chan c).calSum = (s.chan c).calSum ∧ (t.chan c).calResults = (s.chan c).calResults) ∧
      (∀ c, v.entry.owner = .chan c → v.entry.purpose = .shuntA ∨ v.entry.purpose = .shuntB →
        t.link = begun.link ∧ t.tb = begun.tb ∧ t.prot = s.prot ∧ begun.sameChannelsBut t c ∧
          (t.chan c).gates = (begun.chan c).gates ∧ (t.chan c).state = (s.chan c).state ∧ (t.chan c).sq = (s.chan c).sq ∧
          ((s.chan c).rb.work = none → (t.chan c).rb = (s.chan c).rb) ∧
          ∀ w, (s.chan c).rb.work = some w →
            let place := Place.converted raw.toNat v.start (ticksSince v.start v.entry.due)
            let kept : WorkRecord := if v.entry.purpose = .shuntA then { w with placeA := place } else { w with placeB := place }
            (w.plan.seq ≠ v.entry.seq → (t.chan c).rb = (s.chan c).rb) ∧
            (∀ p, w.plan.seq = v.entry.seq → w.plan.body = .vector p →
              (t.chan c).rb = { (s.chan c).rb with work := some kept }) ∧
            (∀ p q b, w.plan.seq = v.entry.seq → w.plan.body = .step p → v.entry.purpose = .shuntA →
              (s.chan c).curPlan = some q → q.body = .step b →
              (t.chan c).rb =
                { (s.chan c).rb with
                  work :=
                    some
                      { kept with
                        sampled :=
                          some
                            (if v.commutated then
                              ((match (s.chan c).sq.dir with
                                | .forward => (b.index + 5) % 6
                                | .reverse => (b.index + 1) % 6), false)
                            else (b.index, decide ((s.chan c).sq.blanking = 0))) } })) ∧
      (∀ i, v.entry.owner = .aux i →
        (v.entry.purpose = .aux .spare1 →
          t.prot = { s.prot with spare1 := latest (v.entry.merged.getD 0) } ∧ t.ch = begun.ch ∧ t.link = begun.link) ∧
        (v.entry.purpose = .aux .spare2 →
          t.prot = { s.prot with spare2 := latest (v.entry.merged.getD 0) } ∧ t.ch = begun.ch ∧ t.link = begun.link)) ∧
      (∀ i, v.entry.owner = .aux i → v.entry.purpose = .aux .bus →
        let reach := fun (entered : Bool) (x : ChanState) => if entered then decide (x ≠ .unconfigured) else x.driving
        t.link =
          (if s.prot.busOver < raw.toNat then
            begun.causeRecords .busOver (reach (decide (s.prot.busCond ≠ .overLimit))) begun.link
          else if s.prot.busUnder ≠ 0 ∧ raw.toNat < s.prot.busUnder then
            begun.causeRecords .busUnder (reach (decide (s.prot.busCond ≠ .underLimit))) begun.link
          else begun.link)) ∧
      (∀ i, v.entry.owner = .aux i → v.entry.purpose = .aux .temp →
        let reach := fun (entered : Bool) (x : ChanState) => if entered then decide (x ≠ .unconfigured) else x.driving
        let warned :=
          if s.prot.tempCond = .normal ∧ (s.prot.tempTrip < raw.toNat ∨ s.prot.tempWarn < raw.toNat) then
            begun.link.queueEvent
              { code := .tempWarn, chan := none, seq := begun.masterSeqNow, repeats := 1, detail := raw.toNat }
          else begun.link
        t.link =
          (if s.prot.tempTrip < raw.toNat then
            begun.causeRecords .temperature (reach (decide (s.prot.tempCond ≠ .hot))) warned
          else warned)) ∧
      (∀ i, v.entry.owner = .aux i → v.entry.purpose = .aux .bus →
        t.prot.bus = latest (v.entry.merged.getD 0) ∧
          t.prot.staleCount = 0 ∧
          t.prot.busCond =
            (if s.prot.busOver < raw.toNat then .overLimit
             else if s.prot.busUnder ≠ 0 ∧ raw.toNat < s.prot.busUnder then .underLimit
             else .normal)) ∧
      (∀ i, v.entry.owner = .aux i → v.entry.purpose = .aux .temp →
        t.prot.temp = latest (v.entry.merged.getD 0) ∧
          t.prot.tempCond =
            (if s.prot.tempTrip < raw.toNat then .hot else if s.prot.tempWarn < raw.toNat then .warm else .normal)) ∧
      (let reaches : Chan → TripCause → Bool → Prop := fun c cause entered =>
          ((s.chan c).state.driving = true →
            (t.chan c).state = .tripped ∧
              (t.chan c).trip = some { first := cause, seq := begun.masterSeqNow, further := 0 }) ∧
          ((s.chan c).state.driving = false →
            (t.chan c).state = (s.chan c).state ∧ (t.chan c).gates = (begun.chan c).gates ∧
              (t.chan c).calSum = (s.chan c).calSum ∧
              (t.chan c).trip =
                (if (s.chan c).state = .tripped ∧ entered = true then
                  (s.chan c).trip.map (fun r =>
                    if cause = r.first then r
                    else { r with further := r.further ||| BitVec.ofNat 8 (2 ^ (cause.code - 1)) })
                else (s.chan c).trip))
       (∀ i, v.entry.owner = .aux i → v.entry.purpose = .aux .bus → ∀ c,
          (s.prot.busOver < raw.toNat → reaches c .busOver (decide (s.prot.busCond ≠ .overLimit))) ∧
          (raw.toNat ≤ s.prot.busOver → s.prot.busUnder ≠ 0 → raw.toNat < s.prot.busUnder →
            reaches c .busUnder (decide (s.prot.busCond ≠ .underLimit))) ∧
          (raw.toNat ≤ s.prot.busOver → s.prot.busUnder = 0 ∨ s.prot.busUnder ≤ raw.toNat →
            t.chan c = begun.chan c)) ∧
       (∀ i, v.entry.owner = .aux i → v.entry.purpose = .aux .temp → ∀ c,
          (s.prot.tempTrip < raw.toNat → reaches c .temperature (decide (s.prot.tempCond ≠ .hot))) ∧
          (raw.toNat ≤ s.prot.tempTrip → t.chan c = begun.chan c)))

/-! ### Protection and supervision -/

/-- R141 to R143: an assertion turns the channel's six gates off in every state and trips a driving one; a release changes the
level alone. -/
def Obligations.FaultInputTurnsTheGatesOff : Prop :=
  (∀ (c : Chan) (s : State), s.clockRuns = true → s.prot.levels.get c = false →
    ∃ t, exec (.faultInputAssertion c) s = .next t ∧ t.prot.levels.get c = true ∧ s.sameChannelsBut t c ∧
      (∀ x, ((t.chan c).gates.get x).top = false ∧ ((t.chan c).gates.get x).bottom = false ∧
        ((t.chan c).gates.get x).topPend = none ∧ ((t.chan c).gates.get x).bottomPend = none) ∧
      ((s.chan c).state.driving = true →
        (t.chan c).state = .tripped ∧ (t.chan c).safe = some .openAll ∧
          (t.chan c).trip = some { first := .faultInput, seq := s.masterSeqNow, further := 0 }) ∧
      ((s.chan c).state = .tripped → (s.chan c).safe.isSome = true →
        (t.chan c).state = .tripped ∧ (t.chan c).safe = some .openAll) ∧
      ((s.chan c).state = .calibrating → (t.chan c).state = .stopped ∧ (t.chan c).z = (s.chan c).z) ∧
      ((s.chan c).state = .stopped ∨ (s.chan c).state = .unconfigured →
        (t.chan c).state = (s.chan c).state ∧ (t.chan c).trip = (s.chan c).trip)) ∧
  (∀ (c : Chan) (s : State), s.clockRuns = true →
    exec (.faultInputRelease c) s =
      .next (({ s with
        prot := { s.prot with pins := s.prot.pins.set c false, levels := s.prot.levels.set c false } } :
        State).settle))

/-- R154 to R157: the slow step of a running window, and the examination of its expiry, which as a row of its own is the model's choice
(log 5). A trip abandons a QUIET entry that is pending. -/
def Obligations.SlowStepEvaluatesHeartbeatThenExpiry : Prop :=
  ∀ s : State, s.sup.enabled = true → s.sup.running = true → s.sup.count < 2000 → 10 ≤ s.sup.te →
    let n := s.sup.count + 1
    let record := fun (code : EventCode) (detail : Nat) =>
      ({ code := code, chan := none, seq := s.masterSeqNow, repeats := 1, detail := detail } : EventRecord)
    let trips : Host.Outcome State Fault Refusal → Link → Nat → Nat → Prop := fun run link count detail =>
      ∃ t : State, run = .next t.settle ∧ t.tb = { s.tb with dev := .locked, quietDropped := s.tb.quietPending } ∧
        t.settle.attn = s.isRunning ∧ t.sup = { s.sup with heartbeat := none, count := count, running := false } ∧
        t.link =
          s.causeRecords .supervision (fun x => decide (x ≠ .unconfigured))
            (link.queueEvent (record .supervisionTrip detail)) ∧
        ∀ c, ((s.chan c).state.driving = true → (t.chan c).state = .tripped ∧
            (t.chan c).trip = some { first := .supervision, seq := s.masterSeqNow, further := 0 }) ∧
          ((s.chan c).state = .calibrating → (t.chan c).state = .stopped) ∧
          ((s.chan c).state = .stopped ∨ (s.chan c).state = .unconfigured ∨ (s.chan c).state = .tripped →
            (t.chan c).state = (s.chan c).state)
    (s.sup.heartbeat = none → n < s.sup.te →
      exec .slowStep s = .next (({ s with sup := { s.sup with count := n } } : State).settle)) ∧
    (∀ b, s.sup.heartbeat = some b → s.sup.tc ≤ n → (s.sup.expected = none ∨ s.sup.expected = some b) →
      exec .slowStep s =
        .next (({ s with
          sup := { s.sup with heartbeat := none, count := 0, stage := 0, expected := some ((b + 1) % 256) } } :
          State).settle)) ∧
    (∀ b e, s.sup.heartbeat = some b → s.sup.tc ≤ n → s.sup.expected = some e → e ≠ b →
      let wrong := s.link.queueEvent (record .supervisionSequence (e * 256 + b))
      (n < s.sup.te →
        exec .slowStep s =
          .next (({ s with link := wrong, sup := { s.sup with heartbeat := none, count := n } } : State).settle)) ∧
      (s.sup.te ≤ n → s.sup.stage = 0 →
        exec .slowStep s =
          .next (({ s with
            link := wrong.queueEvent (record .supervisionLate e)
            sup := { s.sup with heartbeat := none, count := 0, stage := 1 } } : State).settle)) ∧
      (s.sup.te ≤ n → s.sup.stage ≠ 0 → trips (exec .slowStep s) wrong n 1)) ∧
    (s.sup.heartbeat = none → s.sup.te ≤ n → s.sup.stage = 0 →
      exec .slowStep s =
        .next (({ s.queueEvent .supervisionLate none (s.sup.expected.getD 256) with
          sup := { s.sup with count := 0, stage := 1 } } : State).settle)) ∧
    (∀ b, s.sup.heartbeat = some b → n < s.sup.tc → trips (exec .slowStep s) s.link n 0) ∧
    (s.sup.heartbeat = none → s.sup.te ≤ n → s.sup.stage ≠ 0 → trips (exec .slowStep s) s.link n 1) ∧
    (s.sup.te ≤ s.sup.count → s.sup.stage = 0 →
      exec .windowExpiry s =
        .next (({ s.queueEvent .supervisionLate none (s.sup.expected.getD 256) with
          sup := { s.sup with count := 0, stage := 1 } } : State).settle)) ∧
    (s.sup.te ≤ s.sup.count → s.sup.stage ≠ 0 → trips (exec .windowExpiry s) s.link s.sup.count 1)

/-! ### Link -/

/-- R12, R165, R166, R168: what an arriving character brings, by itself and by the rescan of what follows a failed frame's marker; a
framing error, the timeout and a wake. `Receives` spells out the examination of characters from HUNTING; the other clauses give single
arrivals in full. That a character with a framing error restarts the timeout of a frame begun in the rescan (log 14), and that a record
queued in QUIET or during a wake carries the sequence held from QUIET entry (log 46), are the model's readings. -/
def Obligations.CharactersAreHuntedCollectedAndTimedOut : Prop :=
  let keeps : State → List Byte → Nat → State := fun u kept left =>
    { u with link := { u.link with rx := kept, rxLeft := if kept = [] then 0 else left } }
  (∀ (s : State) (ch : Byte), s.isRunning = true →
    let bits := 40 * s.link.rate.bitTicks
    let woken : State :=
      if s.tb.dev = .quiet ∧ s.tb.wakeLeft = none ∧ s.link.rx = [] ∧ ch = 0xD5 then
        { s with tb := { s.tb with wakeLeft := some 16000 } }
      else s
    (∃ kept u, Receives woken (s.link.rx ++ [ch]) kept u ∧
      exec (.characterArrival ch false) s = .next (keeps u kept bits).settle) ∧
    (s.link.rx ≠ [] →
      ∃ kept u, Receives (s.queueEvent .linkError none 1) s.link.rx.tail kept u ∧
        exec (.characterArrival ch true) s = .next (keeps u kept bits).settle) ∧
    (s.link.rx ≠ [] → s.link.rxLeft = 0 →
      ∃ kept u, Receives (s.queueEvent .linkError none 2) s.link.rx.tail kept u ∧
        exec .frameTimeout s = .next (keeps u kept 0).settle)) ∧
  (∀ (s : State) (ch : Byte), s.isRunning = true → s.tb.dev ≠ .quiet → s.link.rx = [] → ch ≠ 0xD5 →
    exec (.characterArrival ch false) s =
      .next (({ s with link := { s.link with rx := [], rxLeft := 0 } } : State).settle)) ∧
  (∀ s : State, s.isRunning = true → s.tb.dev ≠ .quiet → s.link.rx = [] →
    exec (.characterArrival 0xD5 false) s =
      .next (({ s with
        link := { s.link with rx := [0xD5], rxLeft := 40 * s.link.rate.bitTicks } } : State).settle)) ∧
  (∀ s : State, s.isRunning = true → s.tb.dev = .quiet → s.tb.wakeLeft = none → s.link.rx = [] →
    exec (.characterArrival 0xD5 false) s =
      .next (({ s with
        tb := { s.tb with wakeLeft := some 16000 }
        link := { s.link with rx := [0xD5], rxLeft := 40 * s.link.rate.bitTicks } } : State).settle)) ∧
  (∀ (s : State) (ch : Byte) (cs : List Byte), s.isRunning = true → s.link.rx = 0xD5 :: cs → partialFrame (cs ++ [ch]) →
    exec (.characterArrival ch false) s =
      .next (({ s with
        link := { s.link with rx := s.link.rx ++ [ch], rxLeft := 40 * s.link.rate.bitTicks } } : State).settle)) ∧
  (∀ (s : State) (ch type tag : Byte) (payload : List Byte), s.isRunning = true →
    payload.length ≤ 56 → s.link.rx ++ [ch] = frameChars type tag payload → s.link.rx ≠ [] →
    exec (.characterArrival ch false) s =
      .next (if s.link.rxBuf.length < 2 then
          ({ s with
            link :=
              { s.link with
                rxBuf := s.link.rxBuf ++ [{ type := type, tag := tag, payload := payload }], rx := [], rxLeft := 0 } } :
            State).settle
        else ((s.queueEvent .linkError none 3).modLink (fun l => { l with rx := [], rxLeft := 0 })).settle)) ∧
  (∀ (s : State) (ch : Byte), s.isRunning = true → s.link.rx = [0xD5] → 56 < ch.toNat → ch ≠ 0xD5 →
    exec (.characterArrival ch false) s =
      .next (((s.queueEvent .linkError none 4).modLink (fun l => { l with rx := [], rxLeft := 0 })).settle)) ∧
  (∀ (s : State) (ch len type tag : Byte) (payload : List Byte), s.isRunning = true → payload.length ≤ 56 →
    len.toNat = payload.length → s.link.rx = 0xD5 :: len :: type :: tag :: payload → ch ≠ crc (len :: type :: tag :: payload) →
    (0xD5 : Byte) ∉ type :: tag :: payload → ch ≠ 0xD5 →
    exec (.characterArrival ch false) s =
      .next (((s.queueEvent .linkError none 0).modLink (fun l => { l with rx := [], rxLeft := 0 })).settle)) ∧
  (∀ (s : State) (ch : Byte), s.isRunning = true → s.link.rx = [] →
    exec (.characterArrival ch true) s = .next s) ∧
  (∀ (s : State) (ch : Byte), s.isRunning = true → s.link.rx ≠ [] → (0xD5 : Byte) ∉ s.link.rx.tail →
    exec (.characterArrival ch true) s =
      .next (((s.queueEvent .linkError none 1).modLink (fun l => { l with rx := [], rxLeft := 0 })).settle)) ∧
  (∀ s : State, s.isRunning = true → s.link.rx ≠ [] → (0xD5 : Byte) ∉ s.link.rx.tail → s.link.rxLeft = 0 →
    exec .frameTimeout s =
      .next (((s.queueEvent .linkError none 2).modLink (fun l => { l with rx := [], rxLeft := 0 })).settle))

/-- R12, R161, R164, R173, R174, R179, R180: the end of a frame, the end of a gap with the frame that the transmitter then begins,
character by character, and the completion of a wake. The model's choices and readings in it: the ticks left pass first (log 2), the
master period start after a wake is a row of its own (log 6), a gap of 0 is over in the step that ends the frame (log 27), the tag is the
sequence before its advance (log 40), and records move at the end of a step after which nothing of the instant is to come (log 41). -/
def Obligations.FramesGapsAndWakesEnd : Prop :=
  let chars : OutFrame → Byte → List Byte := fun f n =>
    match f with
    | .reply tag payload _ => frameChars 0x80 tag payload
    | .event r =>
      frameChars 0x81 n
        [byte r.code.code, byte (match r.chan with | none => 0 | some c => chanCode c), byte r.seq.toNat,
          byte (r.seq.toNat / 256), byte r.repeats, byte r.detail, byte (r.detail / 256)]
    | .report _ payload => frameChars 0x82 n payload
  let sends : State → OutFrame → State → Prop := fun s f t =>
    t.link.tx =
        .sending (chars f s.link.autoSeq) (match f with | .reply _ _ e => e | _ => .nothing)
          (10 * s.link.rate.bitTicks * (chars f s.link.autoSeq).length) ∧
      t.link.autoSeq = (match f with | .reply _ _ _ => s.link.autoSeq | _ => s.link.autoSeq + 1) ∧
      t.link.rxBuf = s.link.rxBuf ∧ t.ch = s.ch ∧ t.tb = s.tb ∧ t.sched = s.sched ∧ t.prot = s.prot ∧ t.sup = s.sup
  (∀ (s : State) (cs : List Byte) (n : Nat), s.link.tx = .sending cs .nothing n →
    exec .frameSent s =
      .next (if s.link.gap = 0 then (s.elapse n).ready
        else (s.elapse n).modLink (fun l => { l with tx := .gap (l.gap * l.rate.bitTicks) })).settle) ∧
  (∀ (s : State) (cs : List Byte) (n : Nat),
    (s.link.tx = .sending cs .messageReset n → exec .frameSent s = exec .messageReset s) ∧
    (s.link.tx = .sending cs .quietEntry n → exec .frameSent s = exec .quietEntry s) ∧
    (∀ r g, s.link.tx = .sending cs (.setLink r g) n → exec .frameSent s = exec .setLinkInForce s)) ∧
  (∀ (s : State) (n : Nat), s.link.tx = .gap n → exec .gapEnd s = .next (s.elapse n).ready.settle) ∧
  (∀ s : State, s.link.tx = .gap 0 →
    (s.mayTransmit = false →
      ∃ t, exec .gapEnd s = .next t ∧ t.link = { s.link with tx := .idle }) ∧
    (s.mayTransmit = true → s.link.out = [] → s.link.events = [] →
      ∃ t, exec .gapEnd s = .next t ∧ t.link.tx = .idle ∧ t.link.out = [] ∧ t.link.events = []) ∧
    (∀ f rest, s.mayTransmit = true → s.link.out = f :: rest →
      ∃ t, exec .gapEnd s = .next t ∧ sends s f t ∧
        (s.link.events = [] ∨ s.ready.moreToCome = true ∨ 24 ≤ rest.length →
          t.link.out = rest ∧ t.link.events = s.link.events) ∧
        (∀ r es, s.link.events = r :: es → s.ready.moreToCome = false → rest.length < 24 →
          t.link.out = rest ++ [.event r] ∧ t.link.events = es)) ∧
    (∀ r es, s.mayTransmit = true → s.link.out = [] → s.link.events = r :: es → s.moreToCome = false →
      ∃ t, exec .gapEnd s = .next t ∧ sends s (.event r) t ∧ t.link.out = [] ∧ t.link.events = es)) ∧
  (∀ (s : State) (n : Nat), s.isRunning = true → s.tb.wakeLeft = some n →
    (∀ c, s.prot.pins.get c = false ∨ (s.chan c).state = .unconfigured ∨ (s.chan c).state = .stopped) →
    ∃ t, exec .wakeComplete s = .next t ∧ t.tb.dev = .active ∧ t.tb.wakeLeft = none ∧
      t.tb.now = (s.elapse n).tb.now ∧ t.tb.masterNext = (s.elapse n).tb.now ∧ t.tb.masterNextSeq = 0 ∧
      t.tb.count = 0 ∧ t.tb.up = true ∧ t.prot.levels = s.prot.pins ∧
      t.sup =
        (if s.sup.enabled then { s.sup with count := 0, stage := 0, expected := none, running := true } else s.sup) ∧
      ∀ c, (t.chan c).seq = 0 ∧ (t.chan c).state = (s.chan c).state ∧ (t.chan c).active = (s.chan c).active ∧
        ((s.chan c).state ≠ .unconfigured →
          (t.chan c).nextStart = some (addTicks t.tb.now (s.chan c).active.offset, 0)))
end

