-- ==== Sys2Proof/Laws/State.lean ====
section
/-!
SUPPORT. One lemma per field per update of the state: what each named update leaves and what it writes.
-/

namespace Sys2Proof.Machine

/-! ### Three of a kind -/

@[simp] theorem PerChan.get_set_same {α : Type} (p : PerChan α) (c : Chan) (a : α) : (p.set c a).get c = a := by
  cases c <;> rfl

theorem PerChan.get_set_other {α : Type} (p : PerChan α) {c x : Chan} (a : α) (h : x ≠ c) :
    (p.set c a).get x = p.get x := by
  cases c <;> cases x <;> first | rfl | exact absurd rfl h

theorem PerChan.get_set {α : Type} (p : PerChan α) (c x : Chan) (a : α) :
    (p.set c a).get x = if x = c then a else p.get x := by
  cases c <;> cases x <;> rfl

@[simp] theorem PerPhase.get_set_same {α : Type} (p : PerPhase α) (x : Phase) (a : α) : (p.set x a).get x = a := by
  cases x <;> rfl

theorem PerPhase.get_set {α : Type} (p : PerPhase α) (x y : Phase) (a : α) :
    (p.set x a).get y = if y = x then a else p.get y := by
  cases x <;> cases y <;> rfl

@[simp] theorem PerChan.get_map {α β : Type} (f : α → β) (p : PerChan α) (c : Chan) : (p.map f).get c = f (p.get c) := by
  cases c <;> rfl

@[simp] theorem PerPhase.get_map {α β : Type} (f : α → β) (p : PerPhase α) (x : Phase) : (p.map f).get x = f (p.get x) := by
  cases x <;> rfl

@[simp] theorem Gates.get_mapPhase (g : Gates) (f : Phase → PhaseGate → PhaseGate) (x : Phase) :
    (Gates.mapPhase g f).get x = f x (g.get x) := by
  cases x <;> rfl

/-- Two threes of a kind that agree on every channel are equal. -/
theorem PerChan.ext_get {α : Type} {p q : PerChan α} (h : ∀ c, p.get c = q.get c) : p = q := by
  cases p; cases q
  have h1 := h .m1
  have h2 := h .m2
  have h3 := h .m3
  simp only [PerChan.get] at h1 h2 h3
  subst h1; subst h2; subst h3; rfl

/-! ### Named updates -/

@[simp] theorem State.modCh_pending (s : State) (c : Chan) (f : Channel → Channel) : (s.modCh c f).pending = s.pending := rfl
@[simp] theorem State.modCh_power (s : State) (c : Chan) (f : Channel → Channel) : (s.modCh c f).power = s.power := rfl
@[simp] theorem State.modCh_tb (s : State) (c : Chan) (f : Channel → Channel) : (s.modCh c f).tb = s.tb := rfl
@[simp] theorem State.modCh_sched (s : State) (c : Chan) (f : Channel → Channel) : (s.modCh c f).sched = s.sched := rfl
@[simp] theorem State.modCh_prot (s : State) (c : Chan) (f : Channel → Channel) : (s.modCh c f).prot = s.prot := rfl
@[simp] theorem State.modCh_sup (s : State) (c : Chan) (f : Channel → Channel) : (s.modCh c f).sup = s.sup := rfl
@[simp] theorem State.modCh_link (s : State) (c : Chan) (f : Channel → Channel) : (s.modCh c f).link = s.link := rfl
@[simp] theorem State.modCh_attn (s : State) (c : Chan) (f : Channel → Channel) : (s.modCh c f).attn = s.attn := rfl
@[simp] theorem State.modCh_fresh (s : State) (c : Chan) (f : Channel → Channel) : (s.modCh c f).fresh = s.fresh := rfl

@[simp] theorem State.modLink_pending (s : State) (f : Link → Link) : (s.modLink f).pending = s.pending := rfl
@[simp] theorem State.modLink_power (s : State) (f : Link → Link) : (s.modLink f).power = s.power := rfl
@[simp] theorem State.modLink_tb (s : State) (f : Link → Link) : (s.modLink f).tb = s.tb := rfl
@[simp] theorem State.modLink_ch (s : State) (f : Link → Link) : (s.modLink f).ch = s.ch := rfl
@[simp] theorem State.modLink_sched (s : State) (f : Link → Link) : (s.modLink f).sched = s.sched := rfl
@[simp] theorem State.modLink_prot (s : State) (f : Link → Link) : (s.modLink f).prot = s.prot := rfl
@[simp] theorem State.modLink_sup (s : State) (f : Link → Link) : (s.modLink f).sup = s.sup := rfl
@[simp] theorem State.modLink_link (s : State) (f : Link → Link) : (s.modLink f).link = f s.link := rfl
@[simp] theorem State.modLink_attn (s : State) (f : Link → Link) : (s.modLink f).attn = s.attn := rfl
@[simp] theorem State.modLink_fresh (s : State) (f : Link → Link) : (s.modLink f).fresh = s.fresh := rfl

@[simp] theorem State.modSched_pending (s : State) (f : Scheduler → Scheduler) : (s.modSched f).pending = s.pending := rfl
@[simp] theorem State.modSched_power (s : State) (f : Scheduler → Scheduler) : (s.modSched f).power = s.power := rfl
@[simp] theorem State.modSched_tb (s : State) (f : Scheduler → Scheduler) : (s.modSched f).tb = s.tb := rfl
@[simp] theorem State.modSched_ch (s : State) (f : Scheduler → Scheduler) : (s.modSched f).ch = s.ch := rfl
@[simp] theorem State.modSched_sched (s : State) (f : Scheduler → Scheduler) : (s.modSched f).sched = f s.sched := rfl
@[simp] theorem State.modSched_prot (s : State) (f : Scheduler → Scheduler) : (s.modSched f).prot = s.prot := rfl
@[simp] theorem State.modSched_sup (s : State) (f : Scheduler → Scheduler) : (s.modSched f).sup = s.sup := rfl
@[simp] theorem State.modSched_link (s : State) (f : Scheduler → Scheduler) : (s.modSched f).link = s.link := rfl
@[simp] theorem State.modSched_attn (s : State) (f : Scheduler → Scheduler) : (s.modSched f).attn = s.attn := rfl
@[simp] theorem State.modSched_fresh (s : State) (f : Scheduler → Scheduler) : (s.modSched f).fresh = s.fresh := rfl

@[simp] theorem State.modProt_pending (s : State) (f : Protection → Protection) : (s.modProt f).pending = s.pending := rfl
@[simp] theorem State.modProt_power (s : State) (f : Protection → Protection) : (s.modProt f).power = s.power := rfl
@[simp] theorem State.modProt_tb (s : State) (f : Protection → Protection) : (s.modProt f).tb = s.tb := rfl
@[simp] theorem State.modProt_ch (s : State) (f : Protection → Protection) : (s.modProt f).ch = s.ch := rfl
@[simp] theorem State.modProt_sched (s : State) (f : Protection → Protection) : (s.modProt f).sched = s.sched := rfl
@[simp] theorem State.modProt_prot (s : State) (f : Protection → Protection) : (s.modProt f).prot = f s.prot := rfl
@[simp] theorem State.modProt_sup (s : State) (f : Protection → Protection) : (s.modProt f).sup = s.sup := rfl
@[simp] theorem State.modProt_link (s : State) (f : Protection → Protection) : (s.modProt f).link = s.link := rfl
@[simp] theorem State.modProt_attn (s : State) (f : Protection → Protection) : (s.modProt f).attn = s.attn := rfl
@[simp] theorem State.modProt_fresh (s : State) (f : Protection → Protection) : (s.modProt f).fresh = s.fresh := rfl

@[simp] theorem State.modSup_pending (s : State) (f : Supervision → Supervision) : (s.modSup f).pending = s.pending := rfl
@[simp] theorem State.modSup_power (s : State) (f : Supervision → Supervision) : (s.modSup f).power = s.power := rfl
@[simp] theorem State.modSup_tb (s : State) (f : Supervision → Supervision) : (s.modSup f).tb = s.tb := rfl
@[simp] theorem State.modSup_ch (s : State) (f : Supervision → Supervision) : (s.modSup f).ch = s.ch := rfl
@[simp] theorem State.modSup_sched (s : State) (f : Supervision → Supervision) : (s.modSup f).sched = s.sched := rfl
@[simp] theorem State.modSup_prot (s : State) (f : Supervision → Supervision) : (s.modSup f).prot = s.prot := rfl
@[simp] theorem State.modSup_sup (s : State) (f : Supervision → Supervision) : (s.modSup f).sup = f s.sup := rfl
@[simp] theorem State.modSup_link (s : State) (f : Supervision → Supervision) : (s.modSup f).link = s.link := rfl
@[simp] theorem State.modSup_attn (s : State) (f : Supervision → Supervision) : (s.modSup f).attn = s.attn := rfl
@[simp] theorem State.modSup_fresh (s : State) (f : Supervision → Supervision) : (s.modSup f).fresh = s.fresh := rfl

@[simp] theorem State.modGates_pending (s : State) (c : Chan) (f : Gates → Gates) : (s.modGates c f).pending = s.pending := rfl
@[simp] theorem State.modGates_power (s : State) (c : Chan) (f : Gates → Gates) : (s.modGates c f).power = s.power := rfl
@[simp] theorem State.modGates_tb (s : State) (c : Chan) (f : Gates → Gates) : (s.modGates c f).tb = s.tb := rfl
@[simp] theorem State.modGates_sched (s : State) (c : Chan) (f : Gates → Gates) : (s.modGates c f).sched = s.sched := rfl
@[simp] theorem State.modGates_prot (s : State) (c : Chan) (f : Gates → Gates) : (s.modGates c f).prot = s.prot := rfl
@[simp] theorem State.modGates_sup (s : State) (c : Chan) (f : Gates → Gates) : (s.modGates c f).sup = s.sup := rfl
@[simp] theorem State.modGates_link (s : State) (c : Chan) (f : Gates → Gates) : (s.modGates c f).link = s.link := rfl
@[simp] theorem State.modGates_attn (s : State) (c : Chan) (f : Gates → Gates) : (s.modGates c f).attn = s.attn := rfl
@[simp] theorem State.modGates_fresh (s : State) (c : Chan) (f : Gates → Gates) : (s.modGates c f).fresh = s.fresh := rfl

@[simp] theorem State.modSq_pending (s : State) (c : Chan) (f : StepSeq → StepSeq) : (s.modSq c f).pending = s.pending := rfl
@[simp] theorem State.modSq_power (s : State) (c : Chan) (f : StepSeq → StepSeq) : (s.modSq c f).power = s.power := rfl
@[simp] theorem State.modSq_tb (s : State) (c : Chan) (f : StepSeq → StepSeq) : (s.modSq c f).tb = s.tb := rfl
@[simp] theorem State.modSq_sched (s : State) (c : Chan) (f : StepSeq → StepSeq) : (s.modSq c f).sched = s.sched := rfl
@[simp] theorem State.modSq_prot (s : State) (c : Chan) (f : StepSeq → StepSeq) : (s.modSq c f).prot = s.prot := rfl
@[simp] theorem State.modSq_sup (s : State) (c : Chan) (f : StepSeq → StepSeq) : (s.modSq c f).sup = s.sup := rfl
@[simp] theorem State.modSq_link (s : State) (c : Chan) (f : StepSeq → StepSeq) : (s.modSq c f).link = s.link := rfl
@[simp] theorem State.modSq_attn (s : State) (c : Chan) (f : StepSeq → StepSeq) : (s.modSq c f).attn = s.attn := rfl
@[simp] theorem State.modSq_fresh (s : State) (c : Chan) (f : StepSeq → StepSeq) : (s.modSq c f).fresh = s.fresh := rfl

@[simp] theorem State.modRb_pending (s : State) (c : Chan) (f : Rebuilder → Rebuilder) : (s.modRb c f).pending = s.pending := rfl
@[simp] theorem State.modRb_power (s : State) (c : Chan) (f : Rebuilder → Rebuilder) : (s.modRb c f).power = s.power := rfl
@[simp] theorem State.modRb_tb (s : State) (c : Chan) (f : Rebuilder → Rebuilder) : (s.modRb c f).tb = s.tb := rfl
@[simp] theorem State.modRb_sched (s : State) (c : Chan) (f : Rebuilder → Rebuilder) : (s.modRb c f).sched = s.sched := rfl
@[simp] theorem State.modRb_prot (s : State) (c : Chan) (f : Rebuilder → Rebuilder) : (s.modRb c f).prot = s.prot := rfl
@[simp] theorem State.modRb_sup (s : State) (c : Chan) (f : Rebuilder → Rebuilder) : (s.modRb c f).sup = s.sup := rfl
@[simp] theorem State.modRb_link (s : State) (c : Chan) (f : Rebuilder → Rebuilder) : (s.modRb c f).link = s.link := rfl
@[simp] theorem State.modRb_attn (s : State) (c : Chan) (f : Rebuilder → Rebuilder) : (s.modRb c f).attn = s.attn := rfl
@[simp] theorem State.modRb_fresh (s : State) (c : Chan) (f : Rebuilder → Rebuilder) : (s.modRb c f).fresh = s.fresh := rfl

/-! ### Channels after an update -/

@[simp] theorem State.chan_modCh_same (s : State) (c : Chan) (f : Channel → Channel) :
    (s.modCh c f).chan c = f (s.chan c) := PerChan.get_set_same _ _ _

theorem State.chan_modCh_other (s : State) {c x : Chan} (f : Channel → Channel) (h : x ≠ c) :
    (s.modCh c f).chan x = s.chan x := PerChan.get_set_other _ _ h

theorem State.chan_modCh (s : State) (c x : Chan) (f : Channel → Channel) :
    (s.modCh c f).chan x = if x = c then f (s.chan x) else s.chan x := by
  by_cases h : x = c
  · subst h; simp
  · simp [h, s.chan_modCh_other f h]

@[simp] theorem State.chan_modLink (s : State) (f : Link → Link) (x : Chan) : (s.modLink f).chan x = s.chan x := rfl

@[simp] theorem State.chan_modSched (s : State) (f : Scheduler → Scheduler) (x : Chan) :
    (s.modSched f).chan x = s.chan x := rfl

@[simp] theorem State.chan_modProt (s : State) (f : Protection → Protection) (x : Chan) :
    (s.modProt f).chan x = s.chan x := rfl

@[simp] theorem State.chan_modSup (s : State) (f : Supervision → Supervision) (x : Chan) :
    (s.modSup f).chan x = s.chan x := rfl

@[simp] theorem State.chan_modSq_same (s : State) (c : Chan) (f : StepSeq → StepSeq) :
    (s.modSq c f).chan c = { s.chan c with sq := f (s.chan c).sq } := State.chan_modCh_same _ _ _

@[simp] theorem State.chan_modRb_same (s : State) (c : Chan) (f : Rebuilder → Rebuilder) :
    (s.modRb c f).chan c = { s.chan c with rb := f (s.chan c).rb } := State.chan_modCh_same _ _ _

@[simp] theorem State.chan_modGates_same (s : State) (c : Chan) (f : Gates → Gates) :
    (s.modGates c f).chan c = { s.chan c with gates := f (s.chan c).gates } := State.chan_modCh_same _ _ _

end Sys2Proof.Machine
end

