-- ==== Sys2Proof/Laws/Ops.lean ====
section
/-!
SUPPORT. For each shared operation, what it can do: which part of the state it writes and what it leaves there.
-/

namespace Sys2Proof.Machine

/-! ### The end of a step -/

theorem done_eq (s : State) : done s = .next s.settle := rfl

/-- All that the end of a step can do: where the device may transmit and no record is held back, the link finishes its instant; and
ATTN is set. -/
theorem State.settle_eq (s : State) :
    s.settle =
      { s with
        link := if s.mayTransmit && (s.link.events.isEmpty || !s.moreToCome) then s.link.finish else s.link
        attn := s.settle.attn } := by
  unfold State.settle
  cases h : (s.mayTransmit && (s.link.events.isEmpty || !s.moreToCome)) <;> simp [State.modLink]

@[simp] theorem State.settle_pending (s : State) : s.settle.pending = s.pending := by rw [State.settle_eq]
@[simp] theorem State.settle_power (s : State) : s.settle.power = s.power := by rw [State.settle_eq]
@[simp] theorem State.settle_tb (s : State) : s.settle.tb = s.tb := by rw [State.settle_eq]
@[simp] theorem State.settle_ch (s : State) : s.settle.ch = s.ch := by rw [State.settle_eq]
@[simp] theorem State.settle_sched (s : State) : s.settle.sched = s.sched := by rw [State.settle_eq]
@[simp] theorem State.settle_prot (s : State) : s.settle.prot = s.prot := by rw [State.settle_eq]
@[simp] theorem State.settle_sup (s : State) : s.settle.sup = s.sup := by rw [State.settle_eq]
@[simp] theorem State.settle_fresh (s : State) : s.settle.fresh = s.fresh := by rw [State.settle_eq]
@[simp] theorem State.chan_settle (s : State) (c : Chan) : s.settle.chan c = s.chan c := by simp [State.chan]

theorem State.settle_link (s : State) :
    s.settle.link =
      if s.mayTransmit && (s.link.events.isEmpty || !s.moreToCome) then s.link.finish else s.link := by
  rw [State.settle_eq]

/-- The end of an instant is nothing, or what the end of a step does with nothing held back. -/
theorem State.instantOver_cases (s : State) :
    s.instantOver = s ∨
      s.instantOver =
        { s with link := s.link.finish, attn := ({ s with link := s.link.finish } : State).attnLevel } := by
  unfold State.instantOver
  split
  · exact .inr rfl
  · exact .inl rfl

theorem State.instantOver_of_finished (s : State) (h : s.link.unfinished = false) : s.instantOver = s := by
  simp [State.instantOver, h]

/-- The end of an instant touches the link and ATTN alone. -/
theorem State.instantOver_eq (s : State) :
    s.instantOver = { s with link := s.instantOver.link, attn := s.instantOver.attn } := by
  rcases s.instantOver_cases with h | h <;> rw [h]

@[simp] theorem State.instantOver_pending (s : State) : s.instantOver.pending = s.pending := by rw [State.instantOver_eq]
@[simp] theorem State.instantOver_power (s : State) : s.instantOver.power = s.power := by rw [State.instantOver_eq]
@[simp] theorem State.instantOver_tb (s : State) : s.instantOver.tb = s.tb := by rw [State.instantOver_eq]
@[simp] theorem State.instantOver_ch (s : State) : s.instantOver.ch = s.ch := by rw [State.instantOver_eq]
@[simp] theorem State.instantOver_sched (s : State) : s.instantOver.sched = s.sched := by rw [State.instantOver_eq]
@[simp] theorem State.instantOver_prot (s : State) : s.instantOver.prot = s.prot := by rw [State.instantOver_eq]
@[simp] theorem State.instantOver_sup (s : State) : s.instantOver.sup = s.sup := by rw [State.instantOver_eq]
@[simp] theorem State.instantOver_fresh (s : State) : s.instantOver.fresh = s.fresh := by rw [State.instantOver_eq]
@[simp] theorem State.chan_instantOver (s : State) (c : Chan) : s.instantOver.chan c = s.chan c := by simp [State.chan]

@[simp] theorem State.clockRuns_instantOver (s : State) : s.instantOver.clockRuns = s.clockRuns := by
  simp [State.clockRuns, State.isRunning]

@[simp] theorem State.isRunning_instantOver (s : State) : s.instantOver.isRunning = s.isRunning := by
  simp [State.isRunning]

/-- The level of ATTN depends on the power phase, the device state, the channel states and the emptiness of the event queue. -/
theorem State.attnLevel_congr {s t : State} (hp : t.power.phase = s.power.phase) (hd : t.tb.dev = s.tb.dev)
    (hc : ∀ c, (t.chan c).state = (s.chan c).state) (he : t.link.events.isEmpty = s.link.events.isEmpty) :
    t.attnLevel = s.attnLevel := by
  simp [State.attnLevel, State.isRunning, hp, hd, hc, he]

theorem State.settle_attnRight (s : State) : s.settle.attnRight := by
  unfold State.attnRight State.settle
  rfl

/-! ### Time -/

theorem State.elapse_zero (s : State) : s.elapse 0 = s := rfl

/-- Time passes after the end of the instant. -/
theorem State.elapse_cases (s : State) (n : Nat) :
    (n = 0 ∧ s.elapse n = s) ∨ (n ≠ 0 ∧ s.elapse n = s.instantOver.pass n) := by
  unfold State.elapse
  split
  · rename_i h; exact .inl ⟨h, rfl⟩
  · rename_i h; exact .inr ⟨h, rfl⟩

@[simp] theorem State.elapse_pending (s : State) (n : Nat) : (s.elapse n).pending = s.pending := by
  rcases s.elapse_cases n with ⟨_, h⟩ | ⟨_, h⟩ <;> simp [h, State.pass]
@[simp] theorem State.elapse_prot (s : State) (n : Nat) : (s.elapse n).prot = s.prot := by
  rcases s.elapse_cases n with ⟨_, h⟩ | ⟨_, h⟩ <;> simp [h, State.pass]
@[simp] theorem State.elapse_sup (s : State) (n : Nat) : (s.elapse n).sup = s.sup := by
  rcases s.elapse_cases n with ⟨_, h⟩ | ⟨_, h⟩ <;> simp [h, State.pass]
@[simp] theorem State.elapse_fresh (s : State) (n : Nat) : (s.elapse n).fresh = s.fresh := by
  rcases s.elapse_cases n with ⟨_, h⟩ | ⟨_, h⟩ <;> simp [h, State.pass]

/-- Time changes nothing of a channel but which turn-offs its gates remember. -/
theorem State.chan_elapse (s : State) (n : Nat) (c : Chan) :
    (s.elapse n).chan c = s.chan c ∨ (s.elapse n).chan c = (s.chan c).age (addTicks s.tb.now n) := by
  rcases s.elapse_cases n with ⟨_, h⟩ | ⟨_, h⟩
  · exact .inl (by rw [h])
  · rw [h]
    cases hc : s.clockRuns
    · exact .inl (by simp [State.chan, State.pass, hc])
    · refine .inr ?_
      cases c <;> simp [State.chan, State.pass, hc, PerChan.map, PerChan.get]

theorem Channel.age_eq (k : Channel) (now : Time) : k.age now = { k with gates := (k.age now).gates } := rfl

/-- A phase's outputs and pending turn-ons are untouched by time. -/
theorem PhaseGate.age_outputs (g : PhaseGate) (now : Time) :
    (g.age now).top = g.top ∧ (g.age now).bottom = g.bottom ∧ (g.age now).topPend = g.topPend ∧
      (g.age now).bottomPend = g.bottomPend ∧ (g.age now).edges = g.edges := ⟨rfl, rfl, rfl, rfl, rfl⟩

/-- What time changes of the timebase. -/
theorem State.elapse_tb (s : State) (n : Nat) :
    (s.elapse n).tb =
      { s.tb with
        now := (s.elapse n).tb.now, count := (s.elapse n).tb.count, up := (s.elapse n).tb.up,
        wakeLeft := (s.elapse n).tb.wakeLeft } := by
  rcases s.elapse_cases n with ⟨_, h⟩ | ⟨_, h⟩ <;> rw [h]
  cases hc : s.clockRuns <;> simp [State.pass, Timebase.elapse, hc]

/-- What the passage of time itself changes of the link: the ticks left of the transmitter and of the timeout, and the instant's
batch. -/
theorem State.pass_link (s : State) (n : Nat) :
    (s.pass n).link = { s.link with tx := s.link.tx.elapse n, rxLeft := s.link.rxLeft - n, batch := 0 } := rfl

/-- With nothing held back at the instant, time changes those three of the link alone. -/
theorem State.elapse_link (s : State) (n : Nat) (h : s.link.unfinished = false) :
    (s.elapse n).link =
      { s.link with
        tx := (s.elapse n).link.tx, rxLeft := (s.elapse n).link.rxLeft, batch := (s.elapse n).link.batch } := by
  rcases s.elapse_cases n with ⟨_, hn⟩ | ⟨_, hn⟩ <;> rw [hn]
  rw [s.instantOver_of_finished h, State.pass_link]

/-- What time changes of the scheduler: the ticks left of the conversion in progress. -/
theorem State.elapse_sched (s : State) (n : Nat) :
    (s.elapse n).sched = { s.sched with conv := (s.elapse n).sched.conv } := by
  rcases s.elapse_cases n with ⟨_, h⟩ | ⟨_, h⟩ <;> rw [h]
  simp [State.pass, Scheduler.elapse]

theorem State.elapse_conv (s : State) (n : Nat) :
    (s.elapse n).sched.conv = s.sched.conv.map (fun k => { k with left := k.left - n }) := by
  rcases s.elapse_cases n with ⟨hn, h⟩ | ⟨_, h⟩ <;> rw [h]
  · subst hn; cases h' : s.sched.conv <;> simp
  · simp [State.pass, Scheduler.elapse]

/-- Time never ends a reset. -/
theorem State.elapse_isRunning (s : State) (n : Nat) : (s.elapse n).isRunning = s.isRunning := by
  rcases s.elapse_cases n with ⟨_, h⟩ | ⟨_, h⟩ <;> rw [h]
  cases hp : s.power.phase <;> simp [State.pass, State.isRunning, Power.elapse, hp]

@[simp] theorem State.elapse_supply (s : State) (n : Nat) :
    (s.elapse n).power.supply = s.power.supply ∧ (s.elapse n).power.pinLow = s.power.pinLow ∧
      (s.elapse n).power.supplyNew = s.power.supplyNew ∧ (s.elapse n).power.nextCause = s.power.nextCause := by
  rcases s.elapse_cases n with ⟨_, h⟩ | ⟨_, h⟩ <;> rw [h]
  · exact ⟨rfl, rfl, rfl, rfl⟩
  · cases hp : s.power.phase <;> simp [State.pass, Power.elapse, hp]

/-- ATTN that has its level keeps it while time passes. -/
theorem State.elapse_attnRight (s : State) (n : Nat) (h : s.attnRight) : (s.elapse n).attnRight := by
  have pass_right : ∀ u : State, u.attnRight → (u.pass n).attnRight := by
    intro u hu
    have level : (u.pass n).attnLevel = u.attnLevel := by
      unfold State.attnLevel State.isRunning State.pass State.chan Power.elapse Timebase.elapse Link.elapse
      have startUp : ∀ k : Nat, (PowerPhase.startUp k == PowerPhase.running) = false := fun _ => rfl
      cases hp : u.power.phase <;> cases u.clockRuns <;>
        simp [hp, startUp, Chan.all, PerChan.map, PerChan.get, Channel.age]
    unfold State.attnRight
    rw [level]
    exact hu
  rcases s.elapse_cases n with ⟨_, he⟩ | ⟨_, he⟩ <;> rw [he]
  · exact h
  · apply pass_right
    unfold State.attnRight
    rcases s.instantOver_cases with ho | ho <;> rw [ho]
    · exact h
    · rfl

/-- An instant not yet reached is waited for; one that has been reached is not. -/
theorem State.waitUntil_cases (s : State) (t : Time) :
    (later t s.tb.now = false ∧ s.waitUntil t = s) ∨
      (later t s.tb.now = true ∧ s.waitUntil t = s.elapse (ticksSince t s.tb.now)) := by
  unfold State.waitUntil
  cases h : later t s.tb.now <;> simp

@[simp] theorem State.waitUntil_pending (s : State) (t : Time) : (s.waitUntil t).pending = s.pending := by
  rcases s.waitUntil_cases t with ⟨_, h⟩ | ⟨_, h⟩ <;> simp [h]

/-! ### Transmitter -/

/-- Beginning a frame touches the transmitter and the autonomous sequence alone. -/
theorem Link.begin_eq (l : Link) (f : OutFrame) :
    l.begin f = { l with tx := (l.begin f).tx, autoSeq := (l.begin f).autoSeq } := by
  cases f <;> rfl

@[simp] theorem Link.begin_events (l : Link) (f : OutFrame) : (l.begin f).events = l.events := by cases f <;> rfl
@[simp] theorem Link.begin_out (l : Link) (f : OutFrame) : (l.begin f).out = l.out := by cases f <;> rfl
@[simp] theorem Link.begin_rxBuf (l : Link) (f : OutFrame) : (l.begin f).rxBuf = l.rxBuf := by cases f <;> rfl
@[simp] theorem Link.begin_rate (l : Link) (f : OutFrame) : (l.begin f).rate = l.rate := by cases f <;> rfl
@[simp] theorem Link.begin_gap (l : Link) (f : OutFrame) : (l.begin f).gap = l.gap := by cases f <;> rfl
@[simp] theorem Link.begin_moveOwed (l : Link) (f : OutFrame) : (l.begin f).moveOwed = l.moveOwed := by cases f <;> rfl

/-- All that a record move can do: nothing without a record, else the oldest goes to the tail of the outbound queue. -/
theorem Link.moveEvent_cases (l : Link) :
    (l.events = [] ∧ l.moveEvent = l) ∨
      ∃ r es, l.events = r :: es ∧
        l.moveEvent = { l with events := es, batch := min l.batch es.length, out := l.out ++ [.event r] } := by
  unfold Link.moveEvent
  cases h : l.events with
  | nil => exact .inl ⟨rfl, rfl⟩
  | cons r es => exact .inr ⟨r, es, rfl, rfl⟩

/-! ### Event queue -/

/-- Queuing a record touches nothing but the event queue, its batch and the discarded-events count. -/
theorem Link.queueEvent_eq (l : Link) (r : EventRecord) :
    l.queueEvent r =
      { l with
        events := (l.queueEvent r).events, batch := (l.queueEvent r).batch,
        discarded := (l.queueEvent r).discarded } := by
  unfold Link.queueEvent
  split
  · rfl
  · split <;> rfl

theorem State.queueEvent_eq (s : State) (code : EventCode) (chan : Option Chan) (detail : Nat) :
    s.queueEvent code chan detail =
      { s with
        link := s.link.queueEvent
          { code := code, chan := chan, seq := s.masterSeqNow, repeats := 1, detail := detail } } := rfl

@[simp] theorem State.queueEvent_pending (s : State) (k : EventCode) (c : Option Chan) (d : Nat) :
    (s.queueEvent k c d).pending = s.pending := rfl
@[simp] theorem State.queueEvent_power (s : State) (k : EventCode) (c : Option Chan) (d : Nat) :
    (s.queueEvent k c d).power = s.power := rfl
@[simp] theorem State.queueEvent_tb (s : State) (k : EventCode) (c : Option Chan) (d : Nat) :
    (s.queueEvent k c d).tb = s.tb := rfl
@[simp] theorem State.queueEvent_ch (s : State) (k : EventCode) (c : Option Chan) (d : Nat) :
    (s.queueEvent k c d).ch = s.ch := rfl
@[simp] theorem State.queueEvent_sched (s : State) (k : EventCode) (c : Option Chan) (d : Nat) :
    (s.queueEvent k c d).sched = s.sched := rfl
@[simp] theorem State.queueEvent_prot (s : State) (k : EventCode) (c : Option Chan) (d : Nat) :
    (s.queueEvent k c d).prot = s.prot := rfl
@[simp] theorem State.queueEvent_sup (s : State) (k : EventCode) (c : Option Chan) (d : Nat) :
    (s.queueEvent k c d).sup = s.sup := rfl
@[simp] theorem State.queueEvent_fresh (s : State) (k : EventCode) (c : Option Chan) (d : Nat) :
    (s.queueEvent k c d).fresh = s.fresh := rfl
@[simp] theorem State.chan_queueEvent (s : State) (k : EventCode) (c : Option Chan) (d : Nat) (x : Chan) :
    (s.queueEvent k c d).chan x = s.chan x := rfl

theorem length_insertRecord (r : EventRecord) (es : List EventRecord) : (insertRecord r es).length = es.length + 1 := by
  induction es with
  | nil => rfl
  | cons e es ih => unfold insertRecord; split <;> simp [ih]

theorem perm_insertRecord (r : EventRecord) (es : List EventRecord) : (insertRecord r es).Perm (r :: es) := by
  induction es with
  | nil => exact .refl _
  | cons e es ih =>
    unfold insertRecord
    split
    · exact (ih.cons e).trans (List.Perm.swap r e es)
    · exact .refl _

/-! ### Requests -/

/-- All that a request row can do: nothing where it cannot be taken; else a reply of BAD_LENGTH, of LOCKED, or of the owner. -/
theorem takeRequest_cases {α : Type} (type tag : Byte) (pl : Bool) (fields : Option α)
    (owner : α → State → State × Answer) (s : State) :
    (s.canTake = false ∧ takeRequest type tag pl fields owner s = .next s) ∨
      (s.canTake = true ∧ fields = none ∧
        takeRequest type tag pl fields owner s = .next (s.replied type tag { code := .badLength })) ∨
      (∃ a, s.canTake = true ∧ fields = some a ∧ s.tb.dev = .locked ∧ pl = false ∧
        takeRequest type tag pl fields owner s = .next (s.replied type tag { code := .locked })) ∨
      (∃ a, s.canTake = true ∧ fields = some a ∧ (s.tb.dev ≠ .locked ∨ pl = true) ∧
        takeRequest type tag pl fields owner s = .next ((owner a s).1.replied type tag (owner a s).2)) := by
  unfold takeRequest
  cases hc : s.canTake with
  | false => exact .inl ⟨rfl, rfl⟩
  | true =>
    refine .inr ?_
    cases fields with
    | none => exact .inl ⟨rfl, rfl, rfl⟩
    | some a =>
      refine .inr ?_
      by_cases hl : s.tb.dev = .locked
      · cases pl with
        | false => exact .inl ⟨a, rfl, rfl, hl, rfl, by simp [hl, done_eq, State.replied]⟩
        | true => exact .inr ⟨a, rfl, rfl, .inr rfl, by simp [done_eq, State.replied]⟩
      · exact .inr ⟨a, rfl, rfl, .inl hl, by simp [hl, done_eq, State.replied]⟩

/-- A request that may be taken, with fields that its length fits, is answered by its owner. -/
theorem takeRequest_taken {α : Type} (type tag : Byte) (pl : Bool) (a : α) (owner : α → State → State × Answer) (s : State)
    (h : s.takes) :
    takeRequest type tag pl (some a) owner s = .next ((owner a s).1.replied type tag (owner a s).2) := by
  rcases h with ⟨hc, hd⟩
  simp [takeRequest, hc, hd, done_eq, State.replied]

@[simp] theorem chanOf_chanCode (c : Chan) : chanOf (chanCode c) = some c := by cases c <;> rfl

@[simp] theorem chanByte_toNat (c : Chan) : (chanByte c).toNat = chanCode c := by cases c <;> rfl

@[simp] theorem onChannel_chanCode (c : Chan) (owner : Chan → State → State × Answer) (s : State) :
    onChannel (chanCode c) owner s = owner c s := by simp [onChannel]

/-- A reply touches nothing but the transmitter, the link's queues and ATTN. -/
theorem State.replied_eq (u : State) (type tag : Byte) (a : Answer) :
    u.replied type tag a =
      { u with link := (u.replied type tag a).link, attn := (u.replied type tag a).attn } := by
  unfold State.replied
  rw [State.settle_eq]
  rfl

/-! ### Leaving the plan-computing states -/

/-- After a flush the channel's flushed count has risen by its waiting entries. -/
theorem State.chan_flushChan_same (s : State) (c : Chan) :
    (s.flushChan c).chan c =
      { s.chan c with flushed := (s.chan c).flushed + BitVec.ofNat 32 (s.sched.waiting c) } :=
  State.chan_modCh_same _ _ _

theorem State.chan_flushChan_other (s : State) {c x : Chan} (h : x ≠ c) : (s.flushChan c).chan x = s.chan x :=
  State.chan_modCh_other _ _ h

/-- After the end of a run the channel has no plans, no compare, no working record and no waiting entry. -/
theorem State.chan_endRun_same (s : State) (c : Chan) :
    (s.endRun c).chan c =
      { s.chan c with
        flushed := (s.chan c).flushed + BitVec.ofNat 32 (s.sched.waiting c)
        nextPlan := none
        curPlan := none
        sq := { (s.chan c).sq with compare := none }
        rb := { (s.chan c).rb with work := none } } := by
  unfold State.endRun
  rw [State.chan_modCh_same, State.chan_flushChan_same]

theorem State.chan_endRun_other (s : State) {c x : Chan} (h : x ≠ c) : (s.endRun c).chan x = s.chan x := by
  unfold State.endRun
  rw [State.chan_modCh_other _ _ h, State.chan_flushChan_other _ h]

theorem State.endRun_sched (s : State) (c : Chan) :
    (s.endRun c).sched = { s.sched with timeline := s.sched.timeline.filter (fun e => !e.ownedBy c) } := rfl

@[simp] theorem State.endRun_link (s : State) (c : Chan) : (s.endRun c).link = s.link := rfl
@[simp] theorem State.endRun_tb (s : State) (c : Chan) : (s.endRun c).tb = s.tb := rfl
@[simp] theorem State.endRun_prot (s : State) (c : Chan) : (s.endRun c).prot = s.prot := rfl
@[simp] theorem State.endRun_sup (s : State) (c : Chan) : (s.endRun c).sup = s.sup := rfl
@[simp] theorem State.endRun_pending (s : State) (c : Chan) : (s.endRun c).pending = s.pending := rfl

/-- The channel after it has entered STOPPED. -/
theorem State.chan_toStopped_same (s : State) (c : Chan) :
    (s.toStopped c).chan c =
      { (s.endRun c).chan c with
        state := .stopped
        gates := Gates.allOff ((s.endRun c).chan c).gates s.tb.now s.tb.d } := by
  unfold State.toStopped
  rw [State.chan_modCh_same, State.chan_modGates_same]

theorem State.chan_toStopped_other (s : State) {c x : Chan} (h : x ≠ c) : (s.toStopped c).chan x = s.chan x := by
  unfold State.toStopped State.modGates
  rw [State.chan_modCh_other _ _ h, State.chan_modCh_other _ _ h, State.chan_endRun_other _ h]

/-- The channel after it has entered TRIPPED. -/
theorem State.chan_enterTripped_same (s : State) (c : Chan) (k : TripCause) :
    (s.enterTripped c k).chan c =
      { (s.endRun c).chan c with
        gates :=
          tripGates ((s.chan c).state == .braking) (tripSafe (s.chan c).active k) ((s.endRun c).chan c).gates s.tb.now
            s.tb.d
        state := .tripped
        safe := some (tripSafe (s.chan c).active k)
        trip := some { first := k, seq := s.masterSeqNow, further := 0 } } := by
  unfold State.enterTripped
  simp only [State.chan_queueEvent]
  rw [State.chan_modCh_same, State.chan_modGates_same]

theorem State.chan_enterTripped_other (s : State) {c x : Chan} (k : TripCause) (h : x ≠ c) :
    (s.enterTripped c k).chan x = s.chan x := by
  unfold State.enterTripped State.modGates
  simp only [State.chan_queueEvent]
  rw [State.chan_modCh_other _ _ h, State.chan_modCh_other _ _ h, State.chan_endRun_other _ h]

/-- All that a trip cause can do, by channel state (R140). -/
theorem State.reachCause_cases (s : State) (c : Chan) (k : TripCause) :
    ((s.chan c).state.driving = true ∧ s.reachCause c k = s.enterTripped c k) ∨
      ((s.chan c).state = .tripped ∧
        s.reachCause c k =
          (s.modCh c (fun x => { x with trip := x.trip.map (·.join k) })).queueEvent .trip (some c) k.code) ∨
      ((s.chan c).state = .calibrating ∧ (k = .faultInput ∨ k = .supervision) ∧
        s.reachCause c k = (s.calFailed c .aborted).queueEvent .trip (some c) (k.code + 256)) ∨
      ((s.chan c).state.driving = false ∧ (s.chan c).state ≠ .tripped ∧
        ((s.chan c).state = .calibrating → ¬(k = .faultInput ∨ k = .supervision)) ∧
        s.reachCause c k = s.queueEvent .trip (some c) (k.code + 256)) := by
  unfold State.reachCause
  cases h : (s.chan c).state <;> simp [ChanState.driving, ChanState.running, idleMark]
  by_cases hk : k = .faultInput ∨ k = .supervision
  · simp [hk]
  · simp only [hk]
    exact .inr ⟨⟨fun h => hk (.inl h), fun h => hk (.inr h)⟩, by simp⟩

/-! ### Gates -/

theorem PhaseGate.down_outputs (g : PhaseGate) (now : Time) (d : Nat) :
    (g.down now d).top = false ∧ (g.down now d).bottom = false ∧ (g.down now d).topPend = none ∧
      (g.down now d).bottomPend = none := ⟨rfl, rfl, rfl, rfl⟩

/-- A switch that turns off keeps the instant and the dead time in force (R3). -/
theorem PhaseGate.topDown_topOff (g : PhaseGate) (now : Time) (d : Nat) :
    (g.topDown now d).topOff = if g.top then some ⟨now, d⟩ else g.topOff := rfl

theorem PhaseGate.bottomDown_bottomOff (g : PhaseGate) (now : Time) (d : Nat) :
    (g.bottomDown now d).bottomOff = if g.bottom then some ⟨now, d⟩ else g.bottomOff := rfl

/-- Turning off never turns a switch on. -/
theorem PhaseGate.topDown_outputs (g : PhaseGate) (now : Time) (d : Nat) :
    (g.topDown now d).top = false ∧ (g.topDown now d).bottom = g.bottom := ⟨rfl, rfl⟩

theorem PhaseGate.bottomDown_outputs (g : PhaseGate) (now : Time) (d : Nat) :
    (g.bottomDown now d).bottom = false ∧ (g.bottomDown now d).top = g.top := ⟨rfl, rfl⟩

@[simp] theorem PhaseGate.bottomAt_outputs (g : PhaseGate) (t : Time) :
    (g.bottomAt t).top = g.top ∧ (g.bottomAt t).bottom = g.bottom := by
  unfold PhaseGate.bottomAt; split <;> exact ⟨rfl, rfl⟩

@[simp] theorem PhaseGate.topAt_outputs (g : PhaseGate) (t : Time) :
    (g.topAt t).top = g.top ∧ (g.topAt t).bottom = g.bottom := by
  unfold PhaseGate.topAt; split <;> exact ⟨rfl, rfl⟩

/-- A turn-on is the one operation that turns a switch on, and it does so only while the complementary switch is off and its dead
time is over (R65). -/
theorem PhaseGate.turnOn_top (g : PhaseGate) (now : Time) (h : (g.turnOn .top now).top = true) :
    g.top = true ∨ (g.bottom = false ∧ deadTimeOver now g.bottomOff = true) := by
  unfold PhaseGate.turnOn at h
  cases hb : g.bottom <;> simp [hb] at h
  · by_cases ho : deadTimeOver now g.bottomOff = true
    · exact .inr ⟨rfl, ho⟩
    · simp [ho] at h; exact .inl h
  · exact .inl h

theorem PhaseGate.turnOn_bottom (g : PhaseGate) (now : Time) (h : (g.turnOn .bottom now).bottom = true) :
    g.bottom = true ∨ (g.top = false ∧ deadTimeOver now g.topOff = true) := by
  unfold PhaseGate.turnOn at h
  cases hb : g.top <;> simp [hb] at h
  · by_cases ho : deadTimeOver now g.topOff = true
    · exact .inr ⟨rfl, ho⟩
    · simp [ho] at h; exact .inl h
  · exact .inl h

/-- The last of some turn-offs is one of them, and none of them is later. -/
theorem lastOff_spec {now : Time} {us : List TurnOff} {u : TurnOff} (h : lastOff now us = some u) :
    u ∈ us ∧ ∀ v ∈ us, ticksSince now u.time ≤ ticksSince now v.time := by
  induction us generalizing u with
  | nil => simp [lastOff] at h
  | cons a us ih =>
    unfold lastOff at h
    cases hl : lastOff now us with
    | none =>
      have hus : us = [] := by
        cases us with
        | nil => rfl
        | cons b bs =>
          unfold lastOff at hl
          cases hb : lastOff now bs <;> simp [hb] at hl
          split at hl <;> cases hl
      simp [hl] at h
      subst h; subst hus
      simp
    | some v =>
      obtain ⟨hv, hmin⟩ := ih hl
      simp only [hl] at h
      split at h
      · rename_i hlt
        cases h
        exact ⟨List.mem_cons_of_mem _ hv, fun w hw => by
          rcases List.mem_cons.mp hw with rfl | hw
          · omega
          · exact hmin w hw⟩
      · rename_i hlt
        cases h
        exact ⟨List.mem_cons_self, fun w hw => by
          rcases List.mem_cons.mp hw with rfl | hw
          · exact Nat.le_refl _
          · have := hmin w hw; omega⟩

/-! ### Timeline -/

theorem length_insertEntry (e : Entry) (es : List Entry) : (insertEntry e es).length = es.length + 1 := by
  induction es with
  | nil => rfl
  | cons x xs ih => unfold insertEntry; split <;> simp [ih]

theorem perm_insertEntry (e : Entry) (es : List Entry) : (insertEntry e es).Perm (e :: es) := by
  induction es with
  | nil => exact .refl _
  | cons x xs ih =>
    unfold insertEntry
    split
    · exact .refl _
    · exact (ih.cons x).trans (List.Perm.swap e x xs)

/-- The arbiter's choice is one of the candidates. -/
theorem arbiter_mem {es : List Entry} {e : Entry} (h : arbiter es = some e) : e ∈ es := by
  induction es generalizing e with
  | nil => simp [arbiter] at h
  | cons x xs ih =>
    unfold arbiter at h
    cases hx : arbiter xs with
    | none => simp [hx] at h; simp [h]
    | some b =>
      simp only [hx] at h
      split at h
      · simp at h; subst h; exact List.mem_cons_of_mem _ (ih hx)
      · simp at h; simp [h]

/-- The arbiter chooses whenever there is a candidate. -/
theorem arbiter_isSome {es : List Entry} (h : es ≠ []) : (arbiter es).isSome = true := by
  cases es with
  | nil => exact absurd rfl h
  | cons x xs =>
    unfold arbiter
    cases hx : arbiter xs with
    | none => rfl
    | some b => simp only; split <;> rfl

end Sys2Proof.Machine
end

