-- ==== Sys2Proof/Laws/PerInstr.lean ====
section
/-!
SUPPORT. Statements about every command as syntax, one lemma per constructor.
FitsFrame: a well-formed request is a frame whose payload a frame can carry.
-/

namespace Sys2Proof.Laws

/-- The frame of a well-formed command, if it is one, has a payload of at most 56 characters (ch.10 R163). -/
def FitsFrame.Statement (i : Instr) : Prop := i.wf = true → ∀ f, i.frame = some f → f.payload.length ≤ 56

theorem fits_of_payloadOk {p : List Byte} (h : payloadOk p = true) : p.length ≤ 56 := by simpa [payloadOk] using h

theorem FitsFrame.ident (tag : Byte) (payload : List Byte) : FitsFrame.Statement (.ident tag payload) := by
  intro h f hf
  cases hf
  exact fits_of_payloadOk h

theorem FitsFrame.setLink (tag : Byte) (payload : List Byte) : FitsFrame.Statement (.setLink tag payload) := by
  intro h f hf
  cases hf
  exact fits_of_payloadOk h

theorem FitsFrame.setLinkInForce : FitsFrame.Statement .setLinkInForce := by
  intro _ f hf
  cases hf

theorem FitsFrame.reset (tag : Byte) (payload : List Byte) : FitsFrame.Statement (.reset tag payload) := by
  intro h f hf
  cases hf
  exact fits_of_payloadOk h

theorem FitsFrame.messageReset : FitsFrame.Statement .messageReset := by
  intro _ f hf
  cases hf

theorem FitsFrame.sleep (tag : Byte) (payload : List Byte) : FitsFrame.Statement (.sleep tag payload) := by
  intro h f hf
  cases hf
  exact fits_of_payloadOk h

theorem FitsFrame.quietEntry : FitsFrame.Statement .quietEntry := by
  intro _ f hf
  cases hf

theorem FitsFrame.deviceStatus (tag : Byte) (payload : List Byte) : FitsFrame.Statement (.deviceStatus tag payload) := by
  intro h f hf
  cases hf
  simp only [Instr.wf, Bool.and_eq_true] at h
  exact fits_of_payloadOk h.1

theorem FitsFrame.channelStatus (tag : Byte) (payload : List Byte) : FitsFrame.Statement (.channelStatus tag payload) := by
  intro h f hf
  cases hf
  simp only [Instr.wf, Bool.and_eq_true, beq_iff_eq] at h
  simp only
  omega

theorem FitsFrame.recover (tag : Byte) (payload : List Byte) : FitsFrame.Statement (.recover tag payload) := by
  intro h f hf
  cases hf
  exact fits_of_payloadOk h

theorem FitsFrame.supervise (tag : Byte) (payload : List Byte) : FitsFrame.Statement (.supervise tag payload) := by
  intro h f hf
  cases hf
  exact fits_of_payloadOk h

theorem FitsFrame.heartbeat (tag : Byte) (payload : List Byte) : FitsFrame.Statement (.heartbeat tag payload) := by
  intro h f hf
  cases hf
  exact fits_of_payloadOk h

theorem FitsFrame.carrier (tag : Byte) (payload : List Byte) : FitsFrame.Statement (.carrier tag payload) := by
  intro h f hf
  cases hf
  exact fits_of_payloadOk h

theorem FitsFrame.converter (tag : Byte) (payload : List Byte) : FitsFrame.Statement (.converter tag payload) := by
  intro h f hf
  cases hf
  exact fits_of_payloadOk h

theorem FitsFrame.auxPlan (tag : Byte) (payload : List Byte) : FitsFrame.Statement (.auxPlan tag payload) := by
  intro h f hf
  cases hf
  exact fits_of_payloadOk h

theorem FitsFrame.limits (tag : Byte) (payload : List Byte) : FitsFrame.Statement (.limits tag payload) := by
  intro h f hf
  cases hf
  exact fits_of_payloadOk h

theorem FitsFrame.channelSetup (tag : Byte) (payload : List Byte) : FitsFrame.Statement (.channelSetup tag payload) := by
  intro h f hf
  cases hf
  exact fits_of_payloadOk h

theorem FitsFrame.activate (tag : Byte) (payload : List Byte) : FitsFrame.Statement (.activate tag payload) := by
  intro h f hf
  cases hf
  exact fits_of_payloadOk h

theorem FitsFrame.profile (tag : Byte) (payload : List Byte) : FitsFrame.Statement (.profile tag payload) := by
  intro h f hf
  cases hf
  exact fits_of_payloadOk h

theorem FitsFrame.calibrate (tag : Byte) (payload : List Byte) : FitsFrame.Statement (.calibrate tag payload) := by
  intro h f hf
  cases hf
  exact fits_of_payloadOk h

theorem FitsFrame.start (tag : Byte) (payload : List Byte) : FitsFrame.Statement (.start tag payload) := by
  intro h f hf
  cases hf
  exact fits_of_payloadOk h

theorem FitsFrame.stopCoast (tag : Byte) (payload : List Byte) : FitsFrame.Statement (.stopCoast tag payload) := by
  intro h f hf
  cases hf
  simp only [Instr.wf, Bool.and_eq_true] at h
  exact fits_of_payloadOk h.1

theorem FitsFrame.stopBrake (tag : Byte) (payload : List Byte) : FitsFrame.Statement (.stopBrake tag payload) := by
  intro h f hf
  cases hf
  simp only [Instr.wf, Bool.and_eq_true, beq_iff_eq] at h
  simp only
  omega

theorem FitsFrame.vectorSet (tag : Byte) (payload : List Byte) : FitsFrame.Statement (.vectorSet tag payload) := by
  intro h f hf
  cases hf
  exact fits_of_payloadOk h

theorem FitsFrame.stepSet (tag : Byte) (payload : List Byte) : FitsFrame.Statement (.stepSet tag payload) := by
  intro h f hf
  cases hf
  exact fits_of_payloadOk h

theorem FitsFrame.clearTrip (tag : Byte) (payload : List Byte) : FitsFrame.Statement (.clearTrip tag payload) := by
  intro h f hf
  cases hf
  exact fits_of_payloadOk h

theorem FitsFrame.unknownType (type tag : Byte) (payload : List Byte) : FitsFrame.Statement (.unknownType type tag payload) := by
  intro h f hf
  cases hf
  simp only [Instr.wf, Bool.and_eq_true] at h
  exact fits_of_payloadOk h.1

theorem FitsFrame.powerOnReset (valid : Bool) : FitsFrame.Statement (.powerOnReset valid) := by
  intro _ f hf
  cases hf

theorem FitsFrame.pinReset : FitsFrame.Statement .pinReset := by
  intro _ f hf
  cases hf

theorem FitsFrame.startUpEnd : FitsFrame.Statement .startUpEnd := by
  intro _ f hf
  cases hf

theorem FitsFrame.masterPeriodStart : FitsFrame.Statement .masterPeriodStart := by
  intro _ f hf
  cases hf

theorem FitsFrame.busStale : FitsFrame.Statement .busStale := by
  intro _ f hf
  cases hf

theorem FitsFrame.channelPeriodStart (c : Chan) : FitsFrame.Statement (.channelPeriodStart c) := by
  intro _ f hf
  cases hf

theorem FitsFrame.stale (c : Chan) : FitsFrame.Statement (.stale c) := by
  intro _ f hf
  cases hf

theorem FitsFrame.staleTrip (c : Chan) : FitsFrame.Statement (.staleTrip c) := by
  intro _ f hf
  cases hf

theorem FitsFrame.calTimeout (c : Chan) : FitsFrame.Statement (.calTimeout c) := by
  intro _ f hf
  cases hf

theorem FitsFrame.halfPeriodPoint (c : Chan) : FitsFrame.Statement (.halfPeriodPoint c) := by
  intro _ f hf
  cases hf

theorem FitsFrame.lostSync (c : Chan) : FitsFrame.Statement (.lostSync c) := by
  intro _ f hf
  cases hf

theorem FitsFrame.commutationDue (c : Chan) : FitsFrame.Statement (.commutationDue c) := by
  intro _ f hf
  cases hf

theorem FitsFrame.gateEdge (c : Chan) (x : Phase) : FitsFrame.Statement (.gateEdge c x) := by
  intro _ f hf
  cases hf

theorem FitsFrame.pendingTurnOn (c : Chan) (x : Phase) (side : Side) : FitsFrame.Statement (.pendingTurnOn c x side) := by
  intro _ f hf
  cases hf

theorem FitsFrame.conversionStart : FitsFrame.Statement .conversionStart := by
  intro _ f hf
  cases hf

theorem FitsFrame.conversionComplete (raw : BitVec 12) : FitsFrame.Statement (.conversionComplete raw) := by
  intro _ f hf
  cases hf

theorem FitsFrame.calDone (c : Chan) : FitsFrame.Statement (.calDone c) := by
  intro _ f hf
  cases hf

theorem FitsFrame.handover (c : Chan) (tzc : Time) : FitsFrame.Statement (.handover c tzc) := by
  intro _ f hf
  cases hf

theorem FitsFrame.late (slot : Nat) : FitsFrame.Statement (.late slot) := by
  intro _ f hf
  cases hf

theorem FitsFrame.currentLimit (c : Chan) : FitsFrame.Statement (.currentLimit c) := by
  intro _ f hf
  cases hf

theorem FitsFrame.periodReport (c : Chan) : FitsFrame.Statement (.periodReport c) := by
  intro _ f hf
  cases hf

theorem FitsFrame.faultInputAssertion (c : Chan) : FitsFrame.Statement (.faultInputAssertion c) := by
  intro _ f hf
  cases hf

theorem FitsFrame.faultInputRelease (c : Chan) : FitsFrame.Statement (.faultInputRelease c) := by
  intro _ f hf
  cases hf

theorem FitsFrame.slowStep : FitsFrame.Statement .slowStep := by
  intro _ f hf
  cases hf

theorem FitsFrame.windowExpiry : FitsFrame.Statement .windowExpiry := by
  intro _ f hf
  cases hf

theorem FitsFrame.characterArrival (char : Byte) (framingError : Bool) : FitsFrame.Statement (.characterArrival char framingError) := by
  intro _ f hf
  cases hf

theorem FitsFrame.wakeComplete : FitsFrame.Statement .wakeComplete := by
  intro _ f hf
  cases hf

theorem FitsFrame.frameTimeout : FitsFrame.Statement .frameTimeout := by
  intro _ f hf
  cases hf

theorem FitsFrame.frameSent : FitsFrame.Statement .frameSent := by
  intro _ f hf
  cases hf

theorem FitsFrame.gapEnd : FitsFrame.Statement .gapEnd := by
  intro _ f hf
  cases hf

theorem FitsFrame.resetRelease : FitsFrame.Statement .resetRelease := by
  intro _ f hf
  cases hf

end Sys2Proof.Laws
end

