-- ==== Sys2Proof/Laws/Shapes.lean ====
section
/-!
SUPPORT. The operations against the shapes that `Sys2Proof.Safety` gives the statements: gate boundaries and entries, the records of a
cause, the receiver's examination and the end of a calibration.
-/

namespace Sys2Proof.Machine

open Sys2Proof

/-! ### Gates -/

/-- What the test of a gap says of the plan that follows. -/
theorem gapAbsorbed_iff (h d dn : Nat) (next : Option Plan) (x : Phase) :
    (gapAbsorbed h d dn next x = true ↔ ∃ n, next = some n ∧
    ((∃ v, n.body = .vector v ∧ d < 2 * h - 2 * (v.cmp.get x).c ∧ dn + v.up.get x ≤ d) ∨
      ∃ t, n.body = .step t ∧ d < 2 * h - 2 * t.cmp.c ∧ dn + t.cmp.c ≤ d)) := by
  unfold gapAbsorbed topAbsorbed
  cases next with
  | none => simp
  | some n => cases hb : n.body <;> simp [hb] <;> intro _ <;> omega

/-- All that meeting a boundary can do. -/
theorem PhaseGate.meetEdge_edgeMet (g : PhaseGate) (p : Plan) (next : Option Plan) (x : Phase) (h d : Nat) (now : Time) :
    p.edgeMet next x h d now g (g.meetEdge p next x h d now) := by
  have key : ∀ up dn c bt, p.topInterval x = some (up, dn, c) → p.drivesBottom = bt →
      g.boundaryMet (g.meetEdge p next x h d now) h d dn c bt next x now := by
    intro up dn c bt hi hd
    unfold PhaseGate.boundaryMet PhaseGate.meetEdge
    rw [hi, hd]
    simp only [← gapAbsorbed_iff h d dn next x]
    refine ⟨?_, ?_, ?_, ?_, ?_⟩
    · intro he ha
      simp [he, topAbsorbed]; intro h1 h2; rcases ha with ha | ha
      · omega
      · simp [ha] at h2
    · intro he ha ht
      simp [he, topAbsorbed, ha, ht, PhaseGate.bottomDown, PhaseGate.topAt]
    · intro he ha
      have ht : (topAbsorbed h d c || gapAbsorbed h d dn next x) = true := by simpa [topAbsorbed] using ha
      simp [he, ht]
    · intro he ha hg
      have ht : (topAbsorbed h d c || gapAbsorbed h d dn next x) = false := by
        simp only [topAbsorbed, ha, hg]; simp
      simp only [he, ht]
      cases bt <;> cases hb : g.bottom <;> simp [PhaseGate.topDown, PhaseGate.bottomAt, hb]
    · intro he
      simp [show g.edges ≠ 0 by omega, show g.edges ≠ 1 by omega]
  unfold Plan.edgeMet
  cases hb : p.body with
  | vector v => exact key (v.up.get x) _ _ true (by simp [Plan.topInterval, hb]) (by simp [Plan.drivesBottom, hb])
  | step t =>
    by_cases hx : x = highPhase t.index
    · simp only [hx, if_true]
      subst hx
      exact key t.cmp.c _ _ false (by simp [Plan.topInterval, hb]) (by simp [Plan.drivesBottom, hb])
    · simp [hx, PhaseGate.meetEdge, Plan.topInterval, hb]
  | cal => simp [PhaseGate.meetEdge, Plan.topInterval, hb]

/-- All that a plan can do to the gates when it becomes current. -/
theorem Gates.becomeCurrent_gatesMoved (s u : State) (c : Chan)
    (hn : (s.chan c).nextPlan.isNone → (u.chan c).gates = (s.chan c).gates)
    (hs : ∀ n, (s.chan c).nextPlan = some n →
      (u.chan c).gates =
        Gates.becomeCurrent (s.chan c).gates (s.chan c).curPlan (n.withIndex (s.chan c).sq.index) s.tb.h s.tb.d
          s.tb.now) :
    s.gatesMoved u c := by
  unfold State.gatesMoved
  cases hnp : (s.chan c).nextPlan with
  | none => simp only [hnp]; exact hn (by simp [hnp])
  | some n =>
    have hu := hs n hnp
    cases ho : (s.chan c).curPlan with
    | none =>
      simp only [hnp, ho]
      intro x
      rw [hu, ho]
      simp only [Gates.becomeCurrent, Gates.get_mapPhase, PhaseGate.firstPlan, Plan.withIndex, PhaseGate.bottomAt]
      refine ⟨?_, ?_, ?_⟩
      · intro v hv
        have : (¬ 2 * s.tb.h ≤ s.tb.d + 2 * (v.cmp.get x).c) ↔ s.tb.d < 2 * s.tb.h - 2 * (v.cmp.get x).c := by omega
        simp only [hv, topAbsorbed]
        congr 1
        simp; omega
      · intro v hv; simp [hv]
      · intro hv; simp [hv]
    | some o =>
      simp only [hnp, ho]
      intro x
      have gapw : ∀ g, PhaseGate.meetEdge g o (some (n.withIndex (s.chan c).sq.index)) x s.tb.h s.tb.d s.tb.now =
          PhaseGate.meetEdge g o (some n) x s.tb.h s.tb.d s.tb.now := by
        intro g
        unfold PhaseGate.meetEdge gapAbsorbed Plan.withIndex
        cases hb : n.body <;> simp [hb]
      refine ⟨_, _, PhaseGate.meetEdge_edgeMet _ _ _ _ _ _ _, PhaseGate.meetEdge_edgeMet _ _ _ _ _ _ _, ?_⟩
      rw [hu, ho]
      simp only [Gates.becomeCurrent, Gates.get_mapPhase, PhaseGate.followPlan, PhaseGate.closeEdges, gapw]
      unfold Plan.withIndex
      cases hb : n.body <;> simp [hb, PhaseGate.bottomAt]
      constructor
      · intro h1 h2
        subst h1
        intro hh; exact absurd h2 (hh rfl)
      · intro h1 h2 h3; exact absurd h3 (h1 h2)

theorem lastOff_none {now : Time} {us : List TurnOff} (h : lastOff now us = none) : us = [] := by
  cases us with
  | nil => rfl
  | cons u us =>
    unfold lastOff at h
    split at h
    · simp at h
    · split at h <;> simp at h

/-- All that the bottoms-on entry does. -/
theorem Gates.bottomsOn_entered (g : Gates) (now : Time) (d : Nat) : Gates.bottomsEntered g (g.bottomsOn now d) now d := by
  unfold Gates.bottomsEntered
  generalize ho : (g.map (fun x => ({ x.topDown now d with bottomPend := none } : PhaseGate)) : Gates) = off
  refine ⟨Gates.bottomsInstant off now, ?_, ?_⟩
  · unfold Gates.bottomsInstant
    cases hl : lastOff now (off.u.topOff.toList ++ off.v.topOff.toList ++ off.w.topOff.toList) with
    | none =>
      left
      refine ⟨?_, rfl⟩
      have := lastOff_none hl
      subst ho
      simp only [PerPhase.map, PhaseGate.topDown, List.append_eq_nil_iff, Option.toList_eq_nil_iff] at this
      intro x; cases x
      · exact this.1.1
      · exact this.1.2
      · exact this.2
    | some u =>
      right
      obtain ⟨hm, hle⟩ := lastOff_spec hl
      subst ho
      simp only [PerPhase.map, PhaseGate.topDown, List.mem_append, Option.mem_toList] at hm hle
      have hy : ∀ y w, (if (g.get y).top = true then some ({ time := now, d := d } : TurnOff) else (g.get y).topOff) = some w →
          ticksSince now u.time ≤ ticksSince now w.time := by
        intro y w hw
        apply hle
        cases y
        · exact .inl (.inl hw)
        · exact .inl (.inr hw)
        · exact .inr hw
      rcases hm with (hm | hm) | hm
      · exact ⟨.u, u, hm, hy, rfl⟩
      · exact ⟨.v, u, hm, hy, rfl⟩
      · exact ⟨.w, u, hm, hy, rfl⟩
  · intro x
    unfold Gates.bottomsOn
    subst ho
    simp only [PerPhase.get_map, PhaseGate.bottomAt, PhaseGate.topDown]
    cases hb : (PerPhase.get g x).bottom <;> simp

/-! ### Causes -/

theorem State.masterSeqNow_congr {s t : State} (h1 : t.power = s.power) (h2 : t.tb = s.tb) : t.masterSeqNow = s.masterSeqNow := by
  simp [State.masterSeqNow, State.masterDue, State.clockRuns, State.isRunning, h1, h2]

/-- A cause that reaches a channel leaves the timebase, the power state and supervision. -/
theorem State.reachCause_blocks (s : State) (c : Chan) (k : TripCause) :
    (s.reachCause c k).tb = s.tb ∧ (s.reachCause c k).power = s.power ∧ (s.reachCause c k).sup = s.sup := by
  unfold State.reachCause
  split <;> try (refine ⟨rfl, rfl, rfl⟩)
  split <;> refine ⟨rfl, rfl, rfl⟩

/-- The records of a cause that reaches a channel. -/
theorem State.reachCause_link (s : State) (c : Chan) (k : TripCause) :
    let record := fun (code : EventCode) (detail : Nat) =>
      ({ code := code, chan := some c, seq := s.masterSeqNow, repeats := 1, detail := detail } : EventRecord)
    let x := (s.chan c).state
    let l1 :=
      if x = .calibrating ∧ (k = .faultInput ∨ k = .supervision) then s.link.queueEvent (record .calFailed 2) else s.link
    (s.reachCause c k).link =
      if x.driving ∨ x = .tripped then s.link.queueEvent (record .trip k.code) else l1.queueEvent (record .trip (k.code + 256)) := by
  intro record x l1
  simp only [x, l1, record]
  unfold State.reachCause
  cases hx : (s.chan c).state <;> simp [ChanState.driving, ChanState.running, State.enterTripped, idleMark] <;> try rfl
  split <;> rfl

/-- A cause reaches one channel. -/
theorem State.chan_reachCause_other (s : State) {c x : Chan} (k : TripCause) (h : x ≠ c) :
    (s.reachCause c k).chan x = s.chan x := by
  unfold State.reachCause
  split <;> simp [State.chan_enterTripped_other _ _ h, State.chan_modCh_other _ _ h]
  split <;> simp [State.calFailed, State.chan_toStopped_other _ h]

/-- A cause sent to channels queues its records in their order and leaves the timebase, the power state and supervision. -/
theorem State.sendCause_blocks (s : State) (k : TripCause) (who : ChanState → Bool) :
    (s.sendCause k who).link = s.causeRecords k who s.link ∧ (s.sendCause k who).tb = s.tb ∧
      (s.sendCause k who).power = s.power ∧ (s.sendCause k who).sup = s.sup := by
  have one : ∀ (a : State) (c : Chan), a.tb = s.tb → a.power = s.power → a.sup = s.sup → a.chan c = s.chan c →
      let b := if who (a.chan c).state then a.reachCause c k else a
      b.tb = s.tb ∧ b.power = s.power ∧ b.sup = s.sup ∧ (∀ x, x ≠ c → b.chan x = a.chan x) ∧
      b.link =
        (let record := fun (code : EventCode) (c : Chan) (detail : Nat) =>
          ({ code := code, chan := some c, seq := s.masterSeqNow, repeats := 1, detail := detail } : EventRecord)
        let x := (s.chan c).state
        let l1 :=
          if x = .calibrating ∧ (k = .faultInput ∨ k = .supervision) then a.link.queueEvent (record .calFailed c 2) else a.link
        if who x then
          (if x.driving ∨ x = .tripped then a.link.queueEvent (record .trip c k.code)
          else l1.queueEvent (record .trip c (k.code + 256)))
        else a.link) := by
    intro a c h1 h2 h3 h4
    have hm := State.masterSeqNow_congr h2 h1
    by_cases hw : who (s.chan c).state = true
    · simp only [h4, hw, if_true]
      have hr := State.reachCause_blocks a c k
      refine ⟨hr.1.trans h1, hr.2.1.trans h2, hr.2.2.trans h3, fun x hx => State.chan_reachCause_other a k hx, ?_⟩
      rw [State.reachCause_link]; simp only [h4, hm]
    · simp only [Bool.not_eq_true] at hw
      simp only [h4, hw, Bool.false_eq_true, if_false]
      exact ⟨h1, h2, h3, fun _ _ => trivial, trivial⟩
  unfold State.sendCause State.causeRecords
  simp only [Chan.all, List.foldl_cons, List.foldl_nil]
  obtain ⟨a1, a2, a3, a4, a5⟩ := one s .m1 rfl rfl rfl rfl
  obtain ⟨b1, b2, b3, b4, b5⟩ := one _ .m2 a1 a2 a3 (a4 .m2 (by decide))
  obtain ⟨c1, c2, c3, c4, c5⟩ := one _ .m3 b1 b2 b3 ((b4 .m3 (by decide)).trans (a4 .m3 (by decide)))
  refine ⟨?_, c1, c2, c3⟩
  refine c5.trans ?_
  simp only
  rw [b5]
  simp only
  rw [a5]

/-- All that a supervision trip does to the timebase, to supervision and to the link. -/
theorem State.supervisionTrip_blocks (s : State) (k : SupTrip) :
    (s.supervisionTrip k).tb = { s.tb with dev := .locked, quietDropped := s.tb.quietPending } ∧
      (s.supervisionTrip k).sup = { s.sup with heartbeat := none, running := false } ∧
      (s.supervisionTrip k).link =
        s.causeRecords .supervision (· != .unconfigured) (s.queueEvent .supervisionTrip none k.code).link := by
  obtain ⟨hl, ht, _, hs⟩ := (s.queueEvent .supervisionTrip none k.code).sendCause_blocks .supervision (· != .unconfigured)
  unfold State.supervisionTrip
  simp only [State.modSup_tb, State.modSup_sup, State.modSup_link, hl, ht, hs]
  exact ⟨rfl, rfl, rfl⟩

/-- All that the departure of the SLEEP reply can do with a pending QUIET entry (R10, R157). -/
theorem State.quietEntryNow_cases (s : State) :
    let t : State := { s with tb := { s.tb with quietPending := false, quietDropped := false } }
    (s.tb.quietDropped = false ∧ s.tb.dev = .active ∧ s.allIdle = true ∧ s.quietEntryNow = t.enterQuiet) ∨
      (¬(s.tb.quietDropped = false ∧ s.tb.dev = .active ∧ s.allIdle = true) ∧ s.quietEntryNow = t) := by
  unfold State.quietEntryNow
  split
  · rename_i h; exact .inl ⟨h.1, h.2.1, h.2.2, rfl⟩
  · rename_i h; exact .inr ⟨h, rfl⟩

/-! ### The receiver -/

theorem scan_drop (k : Nat) (cs : List Byte) : scan k cs = scan 0 (cs.drop k) := by
  induction k generalizing cs with
  | zero => rfl
  | succ k ih => cases cs with
    | nil => simp [scan]
    | cons c cs => simp [scan, ih]

/-- All that the examination of a frame's kept characters can find. -/
theorem collected_cases (cs : List Byte) :
    (collected cs = .incomplete ∧ partialFrame cs) ∨
      (∃ len rest, cs = len :: rest ∧ 56 < len.toNat ∧ collected cs = .failed .length) ∨
      ∃ len type tag payload check rest, cs = len :: type :: tag :: (payload ++ check :: rest) ∧ payload.length ≤ 56 ∧
        len.toNat = payload.length ∧
        ((check ≠ crc (len :: type :: tag :: payload) ∧ collected cs = .failed .crc) ∨
          (check = crc (len :: type :: tag :: payload) ∧
            collected cs = .valid { type := type, tag := tag, payload := payload })) := by
  rcases cs with _ | ⟨len, body⟩
  · exact .inl ⟨rfl, fun _ _ h => by simp at h⟩
  by_cases hl : 56 < len.toNat
  · exact .inr (.inl ⟨len, body, rfl, hl, by simp [collected, payloadRoom, hl]⟩)
  have short : body.length < len.toNat + 3 → partialFrame (len :: body) := by
    intro h l r e
    cases e
    exact ⟨by omega, h⟩
  rcases body with _ | ⟨type, _ | ⟨tag, r⟩⟩
  · exact .inl ⟨by simp [collected, payloadRoom, hl], short (by simp)⟩
  · exact .inl ⟨by simp [collected, payloadRoom, hl], short (by simp)⟩
  cases hr : r[len.toNat]? with
  | none =>
    refine .inl ⟨by simp [collected, payloadRoom, hl, hr], short ?_⟩
    rw [List.getElem?_eq_none_iff] at hr
    simp; omega
  | some check =>
    obtain ⟨hlt, hk⟩ := List.getElem?_eq_some_iff.1 hr
    refine .inr (.inr ⟨len, type, tag, r.take len.toNat, check, r.drop (len.toNat + 1), ?_, by simp; omega, by simp; omega, ?_⟩)
    · rw [← hk, List.cons_getElem_drop_succ, List.take_append_drop]
    · by_cases hc : crc (len :: type :: tag :: r.take len.toNat) = check
      · exact .inr ⟨hc.symm, by simp [collected, payloadRoom, hl, hr, hc]⟩
      · exact .inl ⟨fun h => hc h.symm, by simp [collected, payloadRoom, hl, hr, hc]⟩

theorem scan_receives_upto (n : Nat) (cs : List Byte) (h : cs.length ≤ n) (s : State) :
    Receives s cs (scan 0 cs).2 ((scan 0 cs).1.foldl State.rxItem s) := by
  induction n generalizing cs s with
  | zero =>
    cases cs with
    | nil => exact .over s
    | cons c cs => simp at h
  | succ n ih =>
    rcases cs with _ | ⟨c, cs⟩
    · exact .over s
    have h' : cs.length ≤ n := by simpa using h
    unfold scan
    by_cases hc : c = marker
    · rw [if_pos hc, hc]
      rcases collected_cases cs with ⟨e, hp⟩ | ⟨len, rest, rfl, hl, e⟩ |
          ⟨len, type, tag, payload, check, rest, rfl, hl, hn, ⟨hk, e⟩ | ⟨hk, e⟩⟩ <;>
        rw [e]
      · exact .collecting s cs hp
      · exact .tooLong s _ len rest _ hl (ih _ h' _)
      · exact .badCrc s _ len type tag check payload rest _ hl hn hk (ih _ h' _)
      · have hb : byte payload.length = len := by simp [byte, ← hn]
        have hf : marker :: len :: type :: tag :: (payload ++ check :: rest) = frameChars type tag payload ++ rest := by
          simp [frameChars, hb, hk]
        have hd : (len :: type :: tag :: (payload ++ check :: rest)).drop (4 + payload.length) = rest := by
          rw [show 4 + payload.length = (payload.length + 1) + 3 by omega]
          simp
        have hr : rest.length ≤ n := by simp at h'; omega
        simp only [List.foldl_cons]
        rw [scan_drop, hd, hf]
        by_cases hx : s.link.rxBuf.length < 2
        · have hi := ih rest hr (s.rxItem (.frame { type := type, tag := tag, payload := payload }))
          refine .buffered s _ type tag payload rest _ hl hx ?_
          simpa [State.rxItem, rxRoom, hx, State.modLink] using hi
        · have hi := ih rest hr (s.rxItem (.frame { type := type, tag := tag, payload := payload }))
          refine .overrun s _ type tag payload rest _ hl (by omega) ?_
          simpa [State.rxItem, rxRoom, hx, State.linkError, LinkFailure.code] using hi
    · rw [if_neg hc]
      exact .dropped s _ c cs _ hc (ih cs h' s)

/-- All that the receiver can do with characters from HUNTING on. -/
theorem scan_receives (cs : List Byte) (s : State) : Receives s cs (scan 0 cs).2 ((scan 0 cs).1.foldl State.rxItem s) :=
  scan_receives_upto cs.length cs (Nat.le_refl _) s

/-! ### The end of a calibration (R38, R39) -/

/-- What the end of a calibration does, with the zero offset and the record it leaves. -/
theorem State.toStopped_endsCalibration (s : State) (c : Chan) (z : Nat) (code : EventCode) (detail : Nat) :
    s.endsCalibration (((s.toStopped c).modCh c (fun x => { x with z := z })).queueEvent code (some c) detail) c z code
      detail := by
  have hk : (((s.toStopped c).modCh c (fun x => { x with z := z })).queueEvent code (some c) detail).chan c =
      { (s.endRun c).chan c with
        state := .stopped, z := z, gates := Gates.allOff ((s.endRun c).chan c).gates s.tb.now s.tb.d } := by
    show ((s.toStopped c).modCh c (fun x => { x with z := z })).chan c = _
    rw [State.chan_modCh_same, State.chan_toStopped_same]
  refine ⟨?_, fun x => ?_, fun x h => ?_, ?_⟩
  · rw [hk, State.chan_endRun_same]; rfl
  · rw [hk]
    simp only [Gates.allOff, PerPhase.get_map]
    exact ⟨rfl, rfl, rfl, rfl⟩
  · show ((s.toStopped c).modCh c (fun x => { x with z := z })).chan x = _
    rw [State.chan_modCh_other _ _ h, State.chan_toStopped_other _ h]
  · have : (fun e : Entry => decide (e.owner ≠ .chan c)) = fun e => !e.ownedBy c := by
      funext e; rw [Entry.ownedBy, decide_not]; rfl
    rw [this]; rfl

theorem State.modCh_z_self (s : State) (c : Chan) (z : Nat) (h : (s.chan c).z = z) :
    s.modCh c (fun x => { x with z := z }) = s := by
  subst h; cases c <;> rfl

/-- A calibration that fails keeps the zero offset. -/
theorem State.calFailed_endsCalibration (s : State) (c : Chan) (f : CalFailure) :
    s.endsCalibration (s.calFailed c f) c (s.chan c).z .calFailed f.code := by
  have h := s.toStopped_endsCalibration c (s.chan c).z .calFailed f.code
  rwa [State.modCh_z_self _ _ _ (by rw [State.chan_toStopped_same, State.chan_endRun_same])] at h

end Sys2Proof.Machine
end

