-- ==== Sys2Proof/Tests/Slice0.lean ====
section
/-!
SUPPORT. Tests: worked examples of spec/ against the model, a refused ill-formed command for each check of `Instr.wf`, and for each
statement with hypotheses a state and operands that meet them (`witness_…`). Expected values are the spec's own numbers.
-/

namespace Sys2Proof.Tests

open Sys2Proof Sys2Proof.Machine

/-! ### States -/

/-- A running device at device time 6000, in master period 1 since the restart at 0; the transmitter is idle. -/
def up : State :=
  { State.reset with
    power := { State.reset.power with phase := .running, supplyNew := false }
    tb := { Timebase.reset with now := 6000, masterStart := 5000, masterNext := 10000, masterSeq := 1, masterNextSeq := 2 } }

/-- A running device with M1 in a given condition. -/
def upWith (f : Channel → Channel) : State := up.modCh .m1 f

/-- The vector chain's configuration (ch.3 3.9): the reset record with W = 400. -/
def chainCfg : ConfigRecord := { ConfigRecord.reset with window := 400 }

/-- The vector chain's modulator (ch.3 3.9). -/
def chainVm : VectorMod := { amp := 16384, rate := 0, acc := 6553600, age := 0, marker := false }

/-- The vector part of the chain's plan for period 3. -/
def chainPlan : VectorPlan := vectorPlan chainCfg 2500 6553600 16384 3

/-- The chain's plan for a period. -/
def planOf (n : Nat) : Plan := makeVectorPlan chainCfg 2500 chainVm (BitVec.ofNat 16 n)

/-- M1 running the vector chain, its period start 1 due at 6000. -/
def vectorChan : Channel :=
  { Channel.reset with
    state := .vector
    active := chainCfg
    latest := some 1000
    nextStart := some (6000, 1)
    nextHalf := some { time := 6000, peak := false }
    curPlan := some (planOf 0)
    nextPlan := some (planOf 1)
    vm := chainVm }

def spin : State := up.modCh .m1 (fun _ => vectorChan)

/-- A RAMP segment of forced steps of 400 000 ticks (ch.5 5.9, place 2). -/
def seg2 : Segment := { kind := .ramp, duty := 19661, t0 := 500, repeats := 40, t1 := none }

/-- M3 of the drain pump example (ch.5 5.9) in forced step 28 of segment 2. -/
def rampChan : Channel :=
  { Channel.reset with
    state := .ramp
    active := { ConfigRecord.reset with kind := .step, offset := 2500, advance := 8 }
    curPlan := some (makeStepPlan { ConfigRecord.reset with kind := .step } 2500 64 3 19661 true 12119)
    sq :=
      { StepSeq.reset with
        index := 3
        profile := [none, none, some seg2] ++ List.replicate 13 none
        first := 0, last := 2, seg := 2, j := 28
        duty := 9830
        advance := 8
        lastComm := some 60400000
        lastZc := some 60196300
        prev := some (60594990, -21)
        qualified := 5
        compare := some { due := 60800000, kind := .forced, reached := false } } }

/-- The bus result that references the pump's sense results: half of it is 2000. -/
def busResult : AuxResult := { raw := 4000, merged := 0, age := 1 }

/-- The SENSE conversion of the pump that started at 60 599 990. -/
def senseConv : Conversion where
  entry :=
    { slot := 8, owner := .chan .m3, purpose := .sense, due := 60599990, tol := some 200, level := 1, seq := 12119, merged := none }
  start := 60599990
  input := 11
  left := 0
  commutated := false

def ramp : State :=
  { up.modCh .m3 (fun _ => rampChan) with
    tb := { up.tb with now := 60600062, masterStart := 60600000, masterNext := 60605000 }
    prot := { Protection.reset with bus := some busResult }
    sched := { Scheduler.reset with conv := some senseConv } }

/-- M2 of the circulation pump example (ch.5 5.10) in CLOSED before the crossing. -/
def closedSq : StepSeq :=
  { StepSeq.reset with
    index := 1
    advance := 8
    lastComm := some 926250
    lastZc := some 880340
    prev := some (998740, -37)
    p := 4
    t60 := 29970
    compare := some { due := 1046130, kind := .blind, reached := false } }

def closed : State :=
  up.modCh .m2 (fun k =>
    { k with
      state := .closed
      active := { ConfigRecord.reset with kind := .step, offset := 1250, advance := 8 }
      nextStart := some (1046250, 209)
      nextHalf := some { time := 1046250, peak := false }
      sq := closedSq })

/-- What exec answers, where it answers a next state. -/
def after (o : Host.Outcome State Fault Refusal) (p : State → Bool) : Bool :=
  match o with
  | .next t => p t
  | _ => false

/-- The code of the reply that the transmitter has begun. -/
def replyCode (t : State) : Option Byte :=
  match t.link.tx with
  | .sending cs _ _ => cs[5]?
  | _ => none

/-! ### Well-formedness: one refused command for each check -/

theorem test_wf_payload : (Instr.ident 0 (List.replicate 57 0)).wf = false := by decide
theorem test_wf_deviceStatus : (Instr.deviceStatus 0 [1, 0]).wf = false := by decide
theorem test_wf_channelStatus : (Instr.channelStatus 0 [0, 0]).wf = false := by decide
theorem test_wf_channelStatus_length : (Instr.channelStatus 0 [1]).wf = false := by decide
theorem test_wf_stopCoast : (Instr.stopCoast 0 [1, 1]).wf = false := by decide
theorem test_wf_stopBrake : (Instr.stopBrake 0 [1, 0]).wf = false := by decide
theorem test_wf_unknownType : (Instr.unknownType 0x01 0 []).wf = false := by decide
theorem test_wf_late : (Instr.late 9).wf = false := by decide
theorem test_wf_accepts : (Instr.vectorSet 0 [1, 0, 0, 0, 0, 0, 0]).wf = true := by decide

/-! ### Link (ch.10 10.7, ch.11) -/

set_option maxRecDepth 8000 in
theorem test_crc_check : crc [0x31, 0x32, 0x33, 0x34, 0x35, 0x36, 0x37, 0x38, 0x39] = 0x37 := by decide
set_option maxRecDepth 8000 in
theorem test_ident_frame : frameChars 0x01 0x2A [] = [0xD5, 0x00, 0x01, 0x2A, 0x19] := by decide
set_option maxRecDepth 8000 in
theorem test_bad_tag : scan 0 [0xD5, 0x00, 0x01, 0x2B, 0x19] = ([.error .crc], []) := by decide
set_option maxRecDepth 8000 in
theorem test_spike :
    scan 0 [0xD5, 0xD5, 0x00, 0x01, 0x2A, 0x19] =
      ([.error .length, .frame { type := 0x01, tag := 0x2A, payload := [] }], []) := by decide
theorem test_frame_ticks : Link.reset.frameTicks (frameChars 0x01 0x2A []) = 4000 := by decide
set_option maxRecDepth 8000 in
theorem test_ident : after (exec (.ident 0x2A []) up) (fun t => replyCode t == some 0 && t.ch == up.ch) = true := by decide
set_option maxRecDepth 8000 in
theorem test_arrival_completes :
    after (exec (.characterArrival 0x19 false) { up with link := { Link.reset with rx := [0xD5, 0x00, 0x01, 0x2A] } })
      (fun t => t.link.rx == [] && t.link.rxBuf == [{ type := 0x01, tag := 0x2A, payload := [] }]) = true := by decide

/-! ### Vector chain (ch.3 3.9, 3.10) -/

theorem test_sine : sine 100 = 6655 ∧ sine 2148 = -31113 ∧ sine 1124 = 24458 := by decide
theorem test_duties : vectorDuties 100 16384 = ⟨37759, 18875, 46661⟩ := by decide
theorem test_compares :
    phaseCompare 2500 37759 3 = ⟨1059, 9, 1059⟩ ∧ phaseCompare 2500 18875 3 = ⟨1779, 15, 1780⟩ ∧
      phaseCompare 2500 46661 3 = ⟨720, 0, 720⟩ := by decide
theorem test_dither : (List.range 16).map (fun i => (phaseCompare 2500 37759 i).c) =
    [1060, 1060, 1060, 1059, 1060, 1059, 1060, 1059, 1060, 1059, 1060, 1059, 1060, 1059, 1060, 1059] := by decide
theorem test_angle : advanceAngle 201326591 1 = 0 ∧ advanceAngle 0 (-1) = 201326591 := by decide
theorem test_vector_set :
    after (exec (.vectorSet 1 [1, 0x40, 0x9C, 0x00, 0xA6, 0x9D, 0xFD]) (upWith (fun k => { k with state := .stopped })))
      (fun t => t.ch.m1.slot == some (.vector 37837 (-33554432) none) && replyCode t == some 1) = true := by decide
theorem test_stale_warns :
    after (exec (.stale .m1) (upWith (fun k => { vectorChan with vm := { k.vm with age := 64 } })))
      (fun t => t.ch.m1.vm.marker && t.ch.m1.state == .vector) = true := by decide

/-! ### Edges (ch.4 4.3, 4.8) -/

theorem test_stretch_first : stretchFirst 2500 1000 300 900 = 0 ∧ stretchFirst 2500 1000 800 1500 = 500 ∧
    stretchFirst 2500 1000 1200 1700 = 700 := by decide
theorem test_stretch_last : stretchLast 2500 1000 2100 900 = 2100 ∧ stretchLast 2500 1000 2300 1400 = 2400 ∧
    stretchLast 2500 1000 2450 1700 = 2500 := by decide
theorem test_chain_edges : chainPlan.up = ⟨1059, 1780, 659⟩ ∧ chainPlan.dn = ⟨1059, 1780, 781⟩ ∧ chainPlan.winA = 400 ∧
    chainPlan.winB = 721 ∧ chainPlan.stretchedFirst = true ∧ chainPlan.shortA = false := by decide
theorem test_chain_requests :
    vectorRequests chainCfg chainPlan = [⟨.shuntA, 959, 80⟩, ⟨.shuntB, 1680, 80⟩] := by decide

/-! ### Six-step (ch.5 5.9, 5.10) -/

theorem test_forced_steps :
    (List.range 12).map (fun j => ({ kind := .ramp, duty := 16384, t0 := 2000, repeats := 12, t1 := some 500 } : Segment).stepTicks j / 800) =
      [2000, 1863, 1727, 1590, 1454, 1318, 1181, 1045, 909, 772, 636, 500] := by decide
theorem test_align_plan : (makeStepPlan rampChan.active 2500 64 0 9830 false 8001).requests = [⟨.shuntA, 2418, 80⟩] := by decide
theorem test_pump_handover :
    after (exec (.conversionComplete 2063) ramp)
      (fun t => t.ch.m3.state == .closed && t.ch.m3.sq.lastZc == some 60596240 && t.ch.m3.sq.p == 16 &&
        t.ch.m3.sq.t60 == 24996 && t.ch.m3.sq.duty == 19661 &&
        t.ch.m3.sq.compare == some { due := 60746216, kind := .predicted, reached := false }) = true := by decide
theorem test_crossing_measure :
    let q := ((closed.closedCrossing .m2 1000220).chan .m2).sq
    q.p = 4 ∧ q.t60 = 29970 ∧ q.compare = some { due := 1045175, kind := .predicted, reached := false } := by decide
theorem test_measure_discarded : measure 4 29970 317797 = (4, 29970) := by decide
theorem test_blind_commutation :
    after (exec (.halfPeriodPoint .m2) { closed with tb := { up.tb with now := 1046250 } })
      (fun t => t.ch.m2.sq.index == 2 && t.ch.m2.sq.miss == 1 &&
        t.ch.m2.sq.compare == some { due := 1166130, kind := .blind, reached := false }) = true := by decide

/-! ### Calibration and currents (ch.2 2.6, ch.7 7.7, 7.8) -/

theorem test_candidate : calCandidate 131430 = 2054 := by decide
theorem test_cal_done :
    after (exec (.calDone .m1) (upWith (fun k => { k with state := .calibrating, calSum := 131430, calResults := 64 })))
      (fun t => t.ch.m1.z == 2054 && t.ch.m1.state == .stopped) = true := by decide

/-- A working record of the chain's period 3 with two outcomes. -/
def record (a b : Place) : WorkRecord :=
  { plan := planOf 3, start := 10015000, placeA := a, placeB := b, sampled := none }

theorem test_currents_both : formCurrents (record (.converted 2348 0 0) (.converted 1760 0 0)) 2048 =
    ⟨⟨-588, true⟩, ⟨288, true⟩, ⟨300, true⟩⟩ := by decide
theorem test_currents_one : formCurrents (record (.converted 2350 0 0) .late) 2048 =
    ⟨⟨0, false⟩, ⟨0, false⟩, ⟨302, true⟩⟩ := by decide
theorem test_over_count :
    overAfter 0 ⟨⟨-588, true⟩, ⟨288, true⟩, ⟨300, true⟩⟩ 560 = 1 ∧ overAfter 2 ⟨⟨0, false⟩, ⟨0, false⟩, ⟨302, true⟩⟩ 560 = 2 := by
  decide

/-- A working record of the pump's step period (ch.7 7.8). -/
def stepRecord (raw : Nat) (fl : Bool) : WorkRecord :=
  { plan := makeStepPlan rampChan.active 2500 64 1 26214 true 5
    start := 0, placeA := .converted raw 2498 80, placeB := .notPlaced, sampled := some (0, fl) }

theorem test_step_currents : formCurrents (stepRecord 2406 false) 2051 = ⟨⟨355, true⟩, ⟨-355, true⟩, ⟨0, false⟩⟩ := by decide

/-! ### Supervision (ch.9 9.8) -/

/-- Supervision with Tc = 20 and Te = 100. -/
def supervised (count stage : Nat) (expected heartbeat : Option Nat) : State :=
  { spin with
    sup :=
      { enabled := true, tc := 20, te := 100, count := count, stage := stage, expected := expected, heartbeat := heartbeat,
        running := true } }

theorem test_heartbeat_accepted :
    after (exec .slowStep (supervised 49 0 none (some 7))) (fun t => t.sup.count == 0 && t.sup.expected == some 8) = true := by
  decide
theorem test_heartbeat_out_of_sequence :
    after (exec .slowStep (supervised 49 0 (some 9) (some 10)))
      (fun t => t.sup.count == 50 && t.sup.expected == some 9 && t.tb.dev == .active) = true := by decide
theorem test_late_then_trip :
    after (exec .slowStep (supervised 99 0 (some 9) none)) (fun t => t.sup.count == 0 && t.sup.stage == 1) = true ∧
      after (exec .slowStep (supervised 99 1 (some 9) none))
        (fun t => t.tb.dev == .locked && t.sup.count == 100 && t.ch.m1.state == .tripped && t.attn) = true := by decide

/-! ### Scheduling -/

def busEntry : Entry :=
  { slot := 9, owner := .aux 0, purpose := .aux .bus, due := 5000, tol := none, level := 1, seq := 1, merged := some 0 }

def shuntEntry : Entry :=
  { slot := 0, owner := .chan .m1, purpose := .shuntA, due := 5959, tol := some 80, level := 2, seq := 0, merged := none }

/-- The chain with a BUS request that waited and its SHUNT_A due. -/
def waiting : State := { spin with sched := { Scheduler.reset with timeline := [busEntry, shuntEntry] } }

theorem test_level_wins :
    after (exec .conversionStart waiting)
      (fun t => t.sched.conv.map (·.entry.slot) == some 0 && t.sched.timeline == [busEntry]) = true := by decide

/-! ### Witnesses: each meets the hypotheses of the statement it is named after, clause by clause -/

/-- The master period start at 10000 is due. -/
def atStart : State := { up with tb := { up.tb with now := 10000 } }

theorem witness_IdleRaisesWhatIsDueOrTicks :
    (atStart.pending = [] ∧ atStart.due ++ atStart.takingDue ≠ []) ∧
      (up.pending = [] ∧ up.due = [] ∧ up.takingDue = [] ∧ up.expiring = []) := by decide

/-- M1's SHUNT_A request at the end of its tolerance, 80 ticks after 5959, with the converter busy. -/
def expiringNow : State :=
  { up with
    tb := { up.tb with now := 6039 }
    sched := { Scheduler.reset with timeline := [shuntEntry], conv := some ⟨busEntry, 6000, 12, 33, false⟩ } }

/-- A wake, and a start-up, with ticks left. -/
def waking : State := { up with tb := { up.tb with dev := .quiet, wakeLeft := some 8000 } }
def startingUp : State := { State.reset with power := { State.reset.power with phase := .startUp 800 } }

theorem witness_IdleRaisesWhatIsDueOrTicks_more :
    (expiringNow.pending = [] ∧ expiringNow.due = [] ∧ expiringNow.takingDue = [] ∧ expiringNow.expiring = [.late 0]) ∧
      (∀ s ∈ [waking, startingUp], s.pending = [] ∧ s.due = [] ∧ s.takingDue = [] ∧ s.expiring = []) ∧
      waking.tb.dev = .quiet ∧ startingUp.power.phase ≠ .running ∧ up.link.unfinished = false ∧ waking.mayTransmit = false := by
  decide

/-- R1, R2, R11, R12, R13: one tick of a running device, of a wake and of a start-up; at count 2499 rising the next count is the peak. -/
theorem test_tick :
    after (step up) (fun t => t.tb.now == 6001 && t.tb.count == 1001 && t.tb.up) = true ∧
      after (step { up with tb := { up.tb with now := 7499 } }) (fun t => t.tb.count == 2500 && !t.tb.up) = true ∧
      after (step waking) (fun t => t.tb == { waking.tb with wakeLeft := some 7999 } && t.ch == waking.ch) = true ∧
      after (step startingUp) (fun t => t.power.phase == .startUp 799 && t.tb == startingUp.tb) = true := by decide

/-- GatesStayApart, SampleCountersStayInBalance, QueuesKeepTheirBounds, AttnFollowsItsConditions, NoChannelRunsWhileLockedOrQuiet,
SettingsStayInRange, VectorModulatorsStayInRange and GatesFitTheChannelState: a device with a vector channel running. -/
theorem witness_invariants :
    step spin = .next spin.idle ∧ spin.gatesApart ∧ spin.countersAgree ∧ spin.queuesBounded ∧ spin.oneEntryPerSlot ∧
      spin.attnRight ∧ spin.restrained ∧ spin.settingsInRange ∧ spin.auxPlanInRange ∧ spin.supervisionInRange ∧
      spin.vectorsInRange ∧ spin.channelsFit := by
  refine ⟨rfl, ?_, ?_, ⟨by unfold Link.eventsBounded; decide, by decide, ?_, by decide⟩, by unfold State.oneEntryPerSlot; decide, by
    unfold State.attnRight; decide, fun h => absurd rfl h, by unfold State.settingsInRange; decide, by
    unfold State.auxPlanInRange; decide, ?_, ?_, ?_⟩
  · intro c x; cases c <;> cases x <;> decide
  · intro c; cases c <;> decide
  · intro c; cases c <;> decide
  · exact ⟨by decide, by decide, by decide, by decide, by decide, by decide, (by intro n h; cases h), (by intro n h; cases h)⟩
  · intro c; cases c <;> exact ⟨⟨by decide, by decide, by decide, by decide, by decide⟩, by intro p h; cases h⟩
  · intro c
    cases c
    · exact ⟨trivial, by decide, by decide⟩
    · refine ⟨⟨?_, rfl, rfl⟩, by decide, by decide⟩; intro x; cases x <;> decide
    · refine ⟨⟨?_, rfl, rfl⟩, by decide, by decide⟩; intro x; cases x <;> decide

/-- A calibration whose 64 results are in. -/
def calibrated : State := upWith (fun k => { k with state := .calibrating, calSum := 131430, calResults := 64 })

/-- The 64th calibration result about to come in. -/
def lastResult : State :=
  { calibrated.modCh .m1 (fun k => { k with calSum := 129376, calResults := 63, curPlan := some (makeCalPlan k.active 2500 0) }) with
    sched := { Scheduler.reset with conv := some ⟨{ shuntEntry with purpose := .cal }, 5930, 0, 0, false⟩ } }

theorem witness_OnlyCalibrationOrResetWritesTheZeroOffset :
    after (exec (.calDone .m1) calibrated) (fun t => (t.chan .m1).z != (calibrated.chan .m1).z) = true ∧
      after (exec (.conversionComplete 2054) lastResult) (fun t => (t.chan .m1).z == 2054) = true ∧
      (upWith (fun k => { k with z := 2054 })).chan .m1 ≠ State.reset.chan .m1 := by decide

theorem witness_SettingsAreWrittenByTheirRequestsAlone :
    after (exec (.channelSetup 0 [1, 4, 0x90, 1]) up) (fun t => (t.chan .m1).staged != (up.chan .m1).staged) = true ∧
      after (exec (.activate 0 [1]) (upWith (fun k => { k with staged := chainCfg })))
        (fun t => (t.chan .m1).active != (up.chan .m1).active) = true ∧
      after (exec (.carrier 0 [0xE8, 3, 0, 0]) up) (fun t => t.tb.h != up.tb.h && t.tb.d != up.tb.d) = true ∧
      (supervised 0 0 none none).sup.enabled = true := by decide

theorem witness_ReceiverReadsBackEveryFrame : (List.replicate 56 (0xD5 : Byte)).length ≤ 56 := by decide

theorem witness_FrameOfARequestIsReadAsThatRequest :
    (Instr.channelStatus 7 [3, 1]).wf = true ∧ (Instr.channelStatus 7 [3, 1]).frame = some ⟨0x05, 7, [3, 1]⟩ ∧
      (Instr.unknownType 0x29 7 []).wf = true ∧ (Instr.unknownType 0x29 7 []).frame = some ⟨0x29, 7, []⟩ := by decide

theorem witness_ComparesFollowDutyAndDither : (0 : Nat) ≤ 65536 := by decide

theorem witness_StretchMovesOuterEdgesOnly :
    chainCfg.stretch = true ∧ { chainCfg with stretch := false }.stretch = false ∧ chainPlan.stretchedFirst = true := by decide

/-- The sort of equal compares (R59), both short windows, and a step plan with and without its requests. -/
theorem witness_StretchMovesOuterEdgesOnly_requests :
    let flat := vectorPlan chainCfg 2500 0 0 3
    (flat.cmp.get flat.first).c = (flat.cmp.get flat.middle).c ∧ (flat.cmp.get flat.middle).c = (flat.cmp.get flat.last).c ∧
      flat.first = .u ∧ flat.middle = .v ∧ flat.last = .w ∧
      chainPlan.shortA = false ∧ (vectorPlan { chainCfg with lead := 1060 } 2500 6553600 16384 3).shortA = true ∧
      (phaseCompare 2500 (min 19661 rampChan.active.ceiling) 7).c + 64 ≤ 2500 - 82 ∧ ¬(phaseCompare 2500 0 7).c + 64 ≤ 2500 - 82 := by
  decide

/-- R72: the requests of a pump's plan, due H - 82 and H - 10; at a duty of 0 there is none and the sense short flag is set in RAMP. -/
theorem test_step_plan_requests :
    (makeStepPlan rampChan.active 2500 64 3 19661 true 7).requests =
        [⟨.shuntA, 2418, 80⟩, ⟨.sense, 2490, min rampChan.active.senseTol 720⟩] ∧
      makeStepPlan rampChan.active 2500 64 3 0 true 7 =
        { seq := 7, requests := [],
          body := .step { index := 3, duty := 0, dither := 7, cmp := ⟨2500, 0, 2500⟩, shortA := true, senseShort := true } } := by
  decide

/-- A sequencer with the last crossing at 0. -/
def crossed (p : Nat) : State :=
  closed.modCh .m2 (fun k => { k with sq := { closedSq with lastZc := some 0, p := p, t60 := 65535 } })

theorem witness_ClosedCrossingMeasuresT60 :
    prescalers.contains 4 = true ∧ prescalers.contains 128 = true ∧ prescalers.contains 1 = true ∧
      ((crossed 4).chan .m2).sq.lastZc = some 0 ∧ 1 ≤ ((crossed 4).chan .m2).sq.t60 ∧ ((crossed 4).chan .m2).sq.t60 ≤ 65535 ∧
      ticksSince 262144 0 / 4 = 65536 ∧ ticksSince 196608 0 / 4 = 49152 ∧ ticksSince 6291456 0 / 128 = 49152 ∧
      ticksSince 65536 0 / 4 = 16384 ∧ ticksSince 196607 0 / 4 = 49151 ∧ ticksSince 65535 0 / 4 = 16383 ∧
      ticksSince 16383 0 / 1 = 16383 := by decide

theorem witness_ArbiterChoosesTheHighestThenEarliestThenLowest :
    (∀ x ∈ [busEntry, shuntEntry], (x.due - 0).toNat < 2147483648) ∧ arbiter [busEntry, shuntEntry] = some shuntEntry := by
  decide

/-- An event record of a channel. -/
def staleRecord (c : Chan) : EventRecord := { code := .stale, chan := some c, seq := 0, repeats := 255, detail := 64 }

theorem witness_EventRecordsCoalesceOrJoinOrAreDiscarded :
    (∃ e ∈ [staleRecord .m1], e.code = (staleRecord .m1).code ∧ e.chan = (staleRecord .m1).chan) ∧
      (∀ n ∈ [15, 16], (List.replicate n (staleRecord .m1)).length = n ∧
        ∀ e ∈ List.replicate n (staleRecord .m1), ¬(e.code = (staleRecord .m2).code ∧ e.chan = (staleRecord .m2).chan)) := by
  decide

/-- A record of another instant, and one of M2 of this instant, on the queue. -/
def batched : Link :=
  { Link.reset with events := [{ staleRecord .m1 with code := .trip }, staleRecord .m2], batch := 1 }

/-- R172: a record of the device and one of M1 go before M2's of the same instant, one of M3 behind it, and none before one of an earlier
instant; with the queue full the record that stands last is discarded. -/
theorem test_records_of_an_instant :
    let dev : EventRecord := { code := .busStale, chan := none, seq := 0, repeats := 1, detail := 0 }
    let full : Link := { batched with events := List.replicate 15 { staleRecord .m1 with code := .trip } ++ [staleRecord .m2] }
    (batched.queueEvent dev).events = [{ staleRecord .m1 with code := .trip }, dev, staleRecord .m2] ∧
      (batched.queueEvent (staleRecord .m1)).events = [{ staleRecord .m1 with code := .trip }, staleRecord .m1, staleRecord .m2] ∧
      (batched.queueEvent (staleRecord .m3)).events = [{ staleRecord .m1 with code := .trip }, staleRecord .m2, staleRecord .m3] ∧
      ((batched.queueEvent dev).queueEvent { dev with code := .linkError }).events.map (·.code) =
        [.trip, .linkError, .busStale, .stale] ∧
      (full.queueEvent dev).events = List.replicate 15 { staleRecord .m1 with code := .trip } ++ [dev] ∧
      (full.queueEvent dev).discarded = 255 ∧ (full.queueEvent (staleRecord .m3)).events = full.events := by decide

/-- The hypothesis of IdentAnswersPartRevisionCauseAndRate, RecoverEndsLocked, SuperviseEnablesOnce, HeartbeatWaitsForTheSlowStep,
ConverterAndLimitsReplaceTheirValues, CalibrateBeginsFromStopped, ClearTripEndsTheEpisode, and of the request clauses of SetLink, Reset
and Sleep. -/
theorem witness_takes : up.takes ∧ up.canTake = true := ⟨⟨by decide, by decide⟩, by decide⟩

/-- A device whose transmitter sends a reply that brings something. -/
def sending (e : ReplyEffect) : State := { up with link := { Link.reset with tx := .sending [0xD5] e 800 } }

/-- The clauses of SetLinkTakesEffectWhenItsReplyLeaves, ResetRequestResetsWhenItsReplyLeaves, SleepEntersQuietWhenItsReplyLeaves and
FramesGapsAndWakesEnd on the end of a frame. -/
theorem witness_frame_ends :
    (sending (.setLink .r4M 0)).link.tx = .sending [0xD5] (.setLink .r4M 0) 800 ∧
      (sending .messageReset).link.tx = .sending [0xD5] .messageReset 800 ∧
      (sending .quietEntry).link.tx = .sending [0xD5] .quietEntry 800 ∧ (sending .quietEntry).tb.dev = .active ∧
      (∀ c ∈ Chan.all, ((sending .quietEntry).chan c).state = .unconfigured) ∧
      { sending .quietEntry with tb := { up.tb with dev := .locked } }.tb.dev ≠ .active ∧
      ({ spin with link := (sending .quietEntry).link } : State).allIdle = false ∧
      (sending .quietEntry).tb.quietDropped = false ∧
      { sending .quietEntry with tb := { up.tb with quietDropped := true } }.tb.quietDropped ≠ false ∧
      (sending (.setLink .r4M 15)).link.tx = .sending [0xD5] (.setLink .r4M 15) 800 ∧
      (sending .nothing).link.tx = .sending [0xD5] .nothing 800 := by decide

/-- A supervision trip while QUIET entry is pending abandons it, though RECOVER ends LOCKED before the reply has left (R10, R157). -/
theorem test_trip_abandons_quiet_entry :
    let s : State :=
      { sending .quietEntry with
        tb := { up.tb with quietPending := true }
        sup := { (supervised 99 1 none none).sup with heartbeat := some 4, count := 18 } }
    after (exec .slowStep s) (fun t => t.tb.dev == .locked && t.tb.quietDropped && t.sup.heartbeat == none &&
        after (exec (.recover 0 []) t) (fun u => u.tb.dev == .active && u.allIdle &&
          after (exec .frameSent u) (fun w => w.tb.dev == .active && !w.tb.quietPending && !w.tb.quietDropped))) = true ∧
      after (exec .frameSent { s with sup := Supervision.reset }) (fun w => w.tb.dev == .quiet) = true := by decide

theorem witness_StatusReportsItsParts :
    up.canTake = true ∧ 3 < (4 : Byte).toNat ∧ up.sched.aux.length = 4 := by decide

/-- M1 and M2 STOPPED, M2 with a window. -/
def stoppedPair (w : Nat) : State :=
  (upWith (fun k => { k with state := .stopped })).modCh .m2
    (fun k => { k with state := .stopped, active := { k.active with window := w } })

theorem witness_CarrierChecksThenRestarts :
    (stoppedPair 500).takes ∧ u16 0xE7 3 = 999 ∧ u16 0x11 0x27 = 10001 ∧ u16 0xE8 3 = 1000 ∧ u16 0x10 0x27 = 10000 ∧
      u16 0 1 = 256 ∧ u16 0xFF 0 = 255 ∧ spin.allIdle = false ∧
      (stoppedPair 500).allIdle = true ∧ carrierFits ((stoppedPair 500).chan .m2).active 1000 255 = true ∧
      carrierFits ((stoppedPair 501).chan .m2).active 1000 255 = false ∧
      carrierFits ((stoppedPair 501).chan .m1).active 1000 100 = true ∧ chanCode .m1 < chanCode .m2 := by
  exact ⟨⟨by decide, by decide⟩, by decide⟩

theorem witness_AuxPlanWritesItsEntries :
    up.sched.aux.length = 4 ∧
      readAuxPlan [4, 0, 0, 0, 1] = some (4, [⟨0, 0, 1⟩]) ∧
      readAuxPlan [3, 0, 0, 0, 1, 0, 0, 0, 1] = some (3, [⟨0, 0, 1⟩, ⟨0, 0, 1⟩]) ∧
      readAuxPlan [3, 4, 0, 0, 1] = some (3, [⟨4, 0, 1⟩]) ∧
      readAuxPlan [3, 3, 0x88, 0x13, 1] = some (3, [⟨3, 5000, 1⟩]) ∧ 2 * up.tb.h = 5000 ∧
      readAuxPlan [3, 3, 0x87, 0x13, 65] = some (3, [⟨3, 4999, 65⟩]) ∧
      readAuxPlan [3, 3, 0x87, 0x13, 64] = some (3, [⟨3, 4999, 64⟩]) := by decide

theorem witness_ChannelFieldNamingNoneFailsAsFieldOne :
    3 < (4 : Byte).toNat ∧ readSetup [4, 1, 0, 0] = some (4, [(1, 0)]) ∧
      (readProfile [0, 0, 1, 0, 0, 5, 0, 1, 0, 0]).map (·.1) = some 0 ∧
      (readVectorSet [4, 0, 0, 0, 0, 0, 0]).map (·.chan) = some 4 ∧ (readStepSet [0, 0, 0]).map (·.chan) = some 0 := by decide

theorem witness_ChannelSetupWritesTheStagedRecordAlone :
    readSetup [2, 18, 0, 0] = some (chanCode .m2, [(18, 0)]) ∧
      readSetup [2, 17, 0xFF, 0xFF, 5, 19, 0] = some (chanCode .m2, [(17, 65535)] ++ (5, 19) :: []) ∧
      readSetup [2, 17, 0xFF, 0xFF, 1, 1, 0] = some (chanCode .m2, [(17, 65535), (1, 1)]) := by decide

/-- M1 in a state with a staged record. -/
def staging (st : ChanState) (f : ConfigRecord → ConfigRecord) : State :=
  upWith (fun k => { k with state := st, staged := f k.staged })

theorem witness_ActivateChecksThenCopies :
    (staging .stopped id).takes ∧ ((staging .tripped id).chan .m1).state = .tripped ∧
      ¬((staging .stopped (fun r => { r with offset := 5000 })).chan .m1).staged.offset < 2 * up.tb.h ∧
      ((staging .stopped (fun r => { r with offset := 4999, window := 1251 })).chan .m1).staged.offset < 2 * up.tb.h ∧
      ¬((staging .stopped (fun r => { r with offset := 4999, window := 1251 })).chan .m1).staged.window ≤ up.tb.h / 2 ∧
      activateFailing { ConfigRecord.reset with window := 163 } 2500 64 = some 4 ∧
      activateFailing { ConfigRecord.reset with window := 164 } 2500 64 = none ∧
      activateFailing { ConfigRecord.reset with s1 := 256 } 2500 64 = some 10 ∧
      ChanState.driving .braking = true ∧ ChanState.driving .stopped = false ∧
      ConfigRecord.reset.sameNonLive { ConfigRecord.reset with s1 := 255 } = true ∧
      ConfigRecord.reset.sameNonLive { ConfigRecord.reset with blanking := 3 } = false := by
  exact ⟨⟨by decide, by decide⟩, by decide⟩

/-- ActivateChecksThenCopies where the channel leaves UNCONFIGURED or its offset moves: at device time 6000, in the period begun at 5000,
the first start at offset 999 or 1000 is the next master period's, at offset 1001 the present one's, and at 4000 in a channel that had its
period start of sequence 1 the next one's; the master period before the present one
serves an offset that it has not reached yet. -/
theorem witness_ActivateChecksThenCopies_pairing :
    up.masterDue = false ∧ up.tb.masterTaken = 0 ∧ (up.chan .m1).latest = none ∧
      later (addTicks 5000 1000) 6000 = false ∧ later (addTicks 5000 1001) 6000 = true ∧
      (up.nextPairing (up.chan .m1) 1000) = some (11000, 2) ∧ (up.nextPairing (up.chan .m1) 1001) = some (6001, 1) ∧
      (up.nextPairing vectorChan 4000) = some (9000, 1) ∧
      (up.nextPairing { vectorChan with seq := 1 } 4000) = some (14000, 2) ∧
      ({ up with tb := { up.tb with masterTaken := 2, masterStart := 5500 } } : State).nextPairing (up.chan .m1) 5499 = some (10999, 1) ∧
      ({ up with tb := { up.tb with masterTaken := 2, masterStart := 5500 } } : State).nextPairing (up.chan .m1) 5501 = some (6001, 0) := by
  decide

/-- The offset moves at the instant of a period start: its half-period point, still to come at that instant, stays, and the one at H after
it (R7); a point of no period of the channel is the new start's. -/
theorem test_moved_offset_keeps_the_points_of_the_period :
    let k : Channel := { Channel.reset with latest := some 6000, nextStart := some (11000, 2) }
    ({ k with nextHalf := some ⟨6000, false⟩ }.rePair (some (12000, 2)) 2500).nextHalf = some ⟨6000, false⟩ ∧
      ({ k with nextHalf := some ⟨8500, true⟩ }.rePair (some (12000, 2)) 2500).nextHalf = some ⟨8500, true⟩ ∧
      ({ k with nextHalf := some ⟨11000, false⟩ }.rePair (some (12000, 2)) 2500).nextHalf = some ⟨12000, false⟩ := by decide

theorem witness_ProfileWritesItsSegments :
    (up.chan .m1).sq.profile.length = 16 ∧
      readProfile [1, 15, 1, 0, 0, 5, 0, 1, 0x10, 0x27] = some (chanCode .m1, 15, [⟨1, 0, 5, 1, 10000⟩]) ∧
      readProfile [1, 16, 1, 0, 0, 5, 0, 1, 0, 0] = some (chanCode .m1, 16, [⟨1, 0, 5, 1, 0⟩]) ∧
      readProfile [1, 0, 0, 0, 0, 5, 0, 1, 5, 0] = some (chanCode .m1, 0, [⟨0, 0, 5, 1, 5⟩]) ∧
      readProfile [1, 0, 1, 0, 0, 4, 0, 1, 0, 0] = some (chanCode .m1, 0, [⟨1, 0, 4, 1, 0⟩]) := by decide

theorem witness_ProfileWritesItsSegments_fields :
    readProfile [1, 0, 2, 0, 0, 5, 0, 1, 0, 0] = some (chanCode .m1, 0, [⟨2, 0, 5, 1, 0⟩]) ∧
      readProfile [1, 0, 1, 0, 0, 5, 0, 0, 0, 0] = some (chanCode .m1, 0, [⟨1, 0, 5, 0, 0⟩]) ∧
      readProfile [1, 0, 1, 0, 0, 5, 0, 1, 4, 0] = some (chanCode .m1, 0, [⟨1, 0, 5, 1, 4⟩]) := by decide

/-- M1 STOPPED as a step channel with one segment in place 15. -/
def readyStep : State :=
  upWith (fun k =>
    { k with
      state := .stopped
      active := { k.active with kind := .step }
      sq := { k.sq with profile := List.replicate 15 none ++ [some seg2] } })

theorem witness_StartChecksThenRuns :
    readyStep.takes ∧ (readyStep.chan .m1).state = .stopped ∧ (readyStep.chan .m1).active.kind = .step ∧
      readyStep.prot.levels.get .m1 = false ∧ (readyStep.chan .m1).sq.profile[15]? = some (some seg2) ∧
      (readyStep.chan .m1).sq.profile[14]? = some none ∧ (spin.chan .m1).state ≠ .stopped ∧
      ((staging .stopped id).chan .m1).active.kind = .vector := by
  exact ⟨⟨by decide, by decide⟩, by decide⟩

theorem witness_StopActsByStateAndMode :
    spin.takes ∧ (spin.chan .m1).state.running = true ∧ (spin.chan .m1).state.driving = true ∧
      (calibrated.chan .m1).state = .calibrating ∧ ((staging .braking id).chan .m1).state = .braking ∧ 1 < (2 : Byte).toNat := by
  exact ⟨⟨by decide, by decide⟩, by decide⟩

theorem witness_VectorSetStoresTheLimitedSetpoint :
    readVectorSet [1, 0xCD, 0x93, 0, 0, 0, 2, 0xFF, 0xFF] =
        some { chan := chanCode .m1, amp := 37837, rate := 33554432, theta := some 65535 } ∧
      readVectorSet [1, 0xCE, 0x93, 0xFF, 0xFF, 0xFF, 0xFD] =
        some { chan := chanCode .m1, amp := 37838, rate := -33554433, theta := none } ∧
      (readVectorSet [0, 0, 0, 0, 0, 0, 0]).map (·.chan) = some 0 ∧ (readVectorSet [4, 0, 0, 0, 0, 0, 0]).map (·.chan) = some 4 := by
  decide

theorem witness_StepSetStoresTheLimitedSetpoint :
    readStepSet [1, 0x34, 0xF3, 32] = some { chan := chanCode .m1, duty := 62260, advance := some 32 } ∧
      readStepSet [1, 0x33, 0xF3] = some { chan := chanCode .m1, duty := 62259, advance := none } := by decide

/-- A LOCKED device. -/
def locked : State := { up with tb := { up.tb with dev := .locked } }

theorem witness_LockedRefusesAllButIdentStatusRecover :
    (Instr.stopBrake 3 [1, 1]).wf = true ∧ (Instr.stopBrake 3 [1, 1]).frame = some ⟨0x25, 3, [1, 1]⟩ ∧ locked.canTake = true ∧
      locked.tb.dev = .locked ∧ validLength 0x25 2 = true ∧ passedInLocked 0x25 = false := by decide

theorem witness_UnknownTypeAndBadLengthReachNoOwner :
    up.canTake = true ∧ requestTypes.contains 0x29 = false ∧ (Instr.deviceStatus 3 [0]).wf = true ∧
      (Instr.deviceStatus 3 [0]).frame = some ⟨0x05, 3, [0]⟩ ∧ requestTypes.contains 0x05 = true ∧ validLength 0x05 1 = false := by
  decide

theorem witness_ResetsAndStartUp :
    { State.reset with power := { State.reset.power with pinLow := true } }.power.pinLow = true ∧
      State.reset.power.phase = .startUp 160000 ∧ State.reset.link.events = [] ∧ State.reset.link.batch = 0 ∧
      ∀ c ∈ Chan.all, (State.reset.chan c).state = .unconfigured := by decide

theorem witness_MasterPeriodStartAdvancesSequenceAndAges :
    atStart.masterDue = true ∧ atStart.sched.aux.length = 4 ∧ (∃ a ∈ atStart.sched.aux, a.divider ≠ 0 ∧ a.wait = 0) ∧
      (∃ e ∈ waiting.sched.timeline, e.slot < 9) ∧
      { up with prot := { Protection.reset with staleCount := 64 } }.prot.staleCount = 64 := by decide

/-- The aux clauses: BUS is inserted into a free slot and into one that waits, TEMP stands free where two entries name it, SPARE1 is not
inserted; and the staleness count rises to 64 or to 63 in a device with a running channel. -/
theorem witness_MasterPeriodStart_requests :
    let inserted := fun (s : State) (slot : Nat) =>
      s.sched.aux.countP (fun a => decide (a.divider ≠ 0 ∧ a.wait = 0) && auxSlot a.source == slot)
    let twice :=
      { atStart with
        sched := { Scheduler.reset with aux := [⟨.temp, 0, 1, 0⟩, ⟨.temp, 9, 1, 0⟩, ⟨.bus, 0, 2, 1⟩, ⟨.bus, 0, 0, 0⟩] } }
    let running := fun (n : Nat) => { spin with tb := atStart.tb, prot := { Protection.reset with staleCount := n } }
    inserted atStart 9 = 1 ∧ inserted atStart 11 = 0 ∧ inserted twice 10 = 2 ∧ inserted twice 9 = 0 ∧
      (∃ e ∈ waiting.sched.timeline, e.slot = 9) ∧ twice.sched.timeline = [] ∧ twice.masterDue = true ∧
      (running 63).anyRunning = true ∧ min 64 ((running 63).prot.staleCount + 1) = 64 ∧ (running 63).prot.staleGiven = false ∧
      min 64 ((running 62).prot.staleCount + 1) = 63 ∧ atStart.anyRunning = false := by decide

/-- A channel at its period start, in a state. -/
def starting (k : Channel) : State :=
  upWith (fun _ => { k with nextStart := some (6000, 1), nextHalf := some { time := 6000, peak := false } })

/-- The pump's channel before its first plan becomes current. -/
def firstStep (st : ChanState) (g : Segment) : State :=
  starting
    { rampChan with
      state := st
      curPlan := none
      nextPlan := rampChan.curPlan
      sq := { rampChan.sq with profile := [none, none, some g] ++ List.replicate 13 none } }

theorem witness_ChannelPeriodStartDoesTheWorkOfTheState :
    spin.clockRuns = true ∧ (spin.chan .m1).nextStart = some (6000, 1) ∧ later 6000 spin.tb.now = false ∧
      ((starting { vectorChan with state := .braking }).chan .m1).state = .braking ∧
      ((spin.closePeriod .m1).chan .m1).state = .vector ∧ (spin.chan .m1).slot = none ∧
      (spin.chan .m1).vm.age + 1 < (spin.chan .m1).active.s2 ∧
      ((firstStep .align { seg2 with kind := .align }).chan .m1).sq.profile[2]? = some (some { seg2 with kind := .align }) ∧
      (((firstStep .ramp seg2).closePeriod .m1).chan .m1).state = .ramp ∧
      (((starting { rampChan with state := .closed }).closePeriod .m1).chan .m1).state = .closed ∧ rampChan.curPlan ≠ none ∧
      ((starting { vectorChan with state := .calibrating, calPeriods := 255, calResults := 63 }).chan .m1).calPeriods = 255 := by
  decide

/-- A vector channel with a working record: one close that trips it, and one that does not. -/
theorem witness_ChannelPeriodStart_close :
    let high := starting { vectorChan with
      active := { chainCfg with curLimit := 0, limitPeriods := 1 }
      rb := { Rebuilder.reset with work := some (record (.converted 2348 0 0) .late) } }
    let low := starting { vectorChan with rb := { Rebuilder.reset with work := some (record (.converted 2348 0 0) .late) } }
    ((high.closePeriod .m1).chan .m1).state = .tripped ∧ ((low.closePeriod .m1).chan .m1).state = .vector := by decide

/-- A vector channel with a closed period, a due report, and an age that reaches S1 = 5 or S2 = 5 at this period start. -/
def aging (s1 s2 : Nat) : State :=
  starting { vectorChan with
    active := { chainCfg with s1 := s1, s2 := s2, report := 1 }
    vm := { chainVm with age := 4 }
    rb := { Rebuilder.reset with work := some (record (.converted 2348 0 0) .late) } }

theorem witness_ChannelPeriodStart_stale :
    (∀ s ∈ [aging 5 6, aging 5 5, aging 6 7], ((s.closePeriod .m1).chan .m1).state = .vector ∧ (s.chan .m1).slot = none ∧
      (s.closePeriod .m1).link.out.length = 1) ∧
      (aging 5 6).ch.m1.active.s1 ≤ 4 + 1 ∧ (aging 5 5).ch.m1.active.s2 ≤ 4 + 1 ∧ 4 + 1 < (aging 6 7).ch.m1.active.s1 := by decide

/-- R55, R56, R133: the currents and the report of the close stay, the STALE record is queued, and at S2 the trip's behind it. -/
theorem test_stale_and_report :
    let run := fun (s : State) => exec (.channelPeriodStart .m1) { s with link := { s.link with tx := .sending [0xD5] .nothing 800 } }
    let kept := fun (t : State) => t.link.out.length == 1 && t.ch.m1.rb.cur == ⟨.invalid, .invalid, ⟨300, true⟩⟩
    after (run (aging 5 6)) (fun t => kept t && t.link.events.map (·.code) == [.stale] && t.ch.m1.state == .vector) = true ∧
      after (run (aging 5 5)) (fun t => kept t && t.link.events.map (·.code) == [.stale, .trip] && t.ch.m1.state == .tripped) = true ∧
      after (run (aging 6 7)) (fun t => kept t && t.link.events == [] && t.ch.m1.rb.report == 0) = true := by decide

/-- `State.plansMoved`: the chain's requests have slots of their own, free in an empty timeline. -/
theorem witness_plansMoved :
    ((planOf 1).requests.map (fun r => slotOf .m1 r.purpose)).Nodup ∧
      ∀ r ∈ (planOf 1).requests, ∀ e ∈ spin.sched.timeline, e.slot ≠ slotOf .m1 r.purpose := by decide

/-- `State.gatesMoved`: a first vector plan and a first step plan, a plan after another with a boundary left, and none to come. -/
theorem witness_gatesMoved :
    ((starting { vectorChan with curPlan := none }).chan .m1).nextPlan = some (planOf 1) ∧
      (planOf 1).body = .vector (vectorPlan chainCfg 2500 6553600 16384 1) ∧
      ((firstStep .ramp seg2).chan .m1).curPlan = none ∧ (spin.chan .m1).curPlan = some (planOf 0) ∧
      (((starting { vectorChan with gates := { vectorChan.gates with u := { PhaseGate.reset with edges := 1, top := true } } }).chan
        .m1).gates.get .u).edges = 1 ∧
      ((starting { vectorChan with nextPlan := none }).chan .m1).nextPlan = none := by decide

/-- A first RAMP plan begins the run at its period start (R83). -/
theorem test_run_begins :
    after (exec (.channelPeriodStart .m1) (firstStep .ramp seg2))
      (fun t => t.ch.m1.sq.lastComm == some 6000 && t.ch.m1.sq.compare == some { due := 406000, kind := .forced, reached := false }) =
        true := by decide

/-- M1 running with values at their thresholds. -/
def atThresholds : State :=
  upWith (fun _ =>
    { vectorChan with
      active := { chainCfg with report := 255 }
      vm := { chainVm with age := 256 }
      rb := { Rebuilder.reset with work := some (record .waiting .waiting), overCount := 3, report := 255 } })

theorem witness_ThresholdsHaveTheirEffects :
    (atThresholds.chan .m1).state = .vector ∧ (atThresholds.chan .m1).active.s2 ≤ (atThresholds.chan .m1).vm.age ∧
      (atThresholds.chan .m1).vm.marker = false ∧ (atThresholds.chan .m1).active.s1 ≤ (atThresholds.chan .m1).vm.age ∧
      (atThresholds.chan .m1).active.limitPeriods ≤ (atThresholds.chan .m1).rb.overCount ∧
      (atThresholds.chan .m1).rb.work = some (record .waiting .waiting) ∧
      (atThresholds.chan .m1).active.report ≤ (atThresholds.chan .m1).rb.report ∧ atThresholds.link.out.length < 24 ∧
      (calibrated.chan .m1).state = .calibrating ∧ 64 ≤ (calibrated.chan .m1).calResults ∧
      ((calibrated.modCh .m1 (fun k => { k with calPeriods := 256, calResults := 63 })).chan .m1).calResults < 64 ∧
      ((closed.modCh .m2 (fun k => { k with sq := { k.sq with miss := 3 } })).chan .m2).active.missLimit ≤ 3 := by decide

theorem witness_TripPutsADrivingChannelIntoItsSafeState :
    (spin.chan .m1).state.driving = true ∧ (spin.chan .m1).active.safe = .openAll ∧
      ((starting { vectorChan with state := .braking, active := { chainCfg with safe := .short } }).chan .m1).active.safe = .short ∧
      ((starting { vectorChan with active := { chainCfg with safe := .short } }).chan .m1).state ≠ .braking := by decide

/-- The bottoms-on entry (R70, R139): with a top on, D ticks from now; with the last top off 10 ticks ago under D = 64, 54 ticks from now;
with none, now. A bottom that is on stays on. -/
theorem test_bottoms_on :
    let at' := fun (u v : PhaseGate) => ((Gates.bottomsOn ⟨u, v, PhaseGate.reset⟩ 6000 80).get .w).bottomPend
    at' { PhaseGate.reset with top := true } { PhaseGate.reset with topOff := some ⟨5990, 64⟩ } = some 6080 ∧
      at' PhaseGate.reset { PhaseGate.reset with topOff := some ⟨5990, 64⟩ } = some 6054 ∧
      at' { PhaseGate.reset with topOff := some ⟨5980, 255⟩ } { PhaseGate.reset with topOff := some ⟨5990, 5⟩ } = some 6000 ∧
      at' PhaseGate.reset PhaseGate.reset = some 6000 ∧
      Gates.bottomsOn ⟨{ PhaseGate.reset with bottom := true }, PhaseGate.reset, PhaseGate.reset⟩ 6000 80 =
        ⟨{ PhaseGate.reset with bottom := true }, { PhaseGate.reset with bottomPend := some 6000 },
          { PhaseGate.reset with bottomPend := some 6000 }⟩ := by decide

/-- The half-period point at 1 046 250 has come, the compare of the circulation pump not yet marked. -/
def atPoint (due : Time) (k : CompareKind) : State :=
  { closed.modCh .m2 (fun x => { x with sq := { x.sq with compare := some { due := due, kind := k, reached := false } } }) with
    tb := { up.tb with now := 1046250 } }

/-- The pump's channel with its FORCED compare due at the half-period point 60 800 000. -/
def forced (st : ChanState) (f : StepSeq → StepSeq) : State :=
  { up.modCh .m3 (fun _ =>
      { rampChan with
        state := st, nextHalf := some { time := 60800000, peak := true }, nextStart := some (60802500, 1), sq := f rampChan.sq }) with
    tb := { up.tb with now := 60800000, masterStart := 60800000, masterNext := 60805000 } }

theorem witness_HalfPeriodPointAppliesADueCompare :
    (atPoint 1046250 .predicted).clockRuns = true ∧
      ((atPoint 1046250 .predicted).chan .m2).nextHalf = some { time := 1046250, peak := false } ∧
      later 1046250 (1046250 : Time) = false ∧ notBefore 1046250 (1046250 : Time) = true ∧
      notBefore 1046250 (1046251 : Time) = false ∧ ((atPoint 1046250 .predicted).chan .m2).state = .closed ∧
      min 7 (((atPoint 1046130 .blind).chan .m2).sq.miss + 1) < ((atPoint 1046130 .blind).chan .m2).active.missLimit ∧
      (((atPoint 1046130 .blind).modCh .m2 (fun k => { k with active := { k.active with missLimit := 1 } })).chan .m2).active.missLimit ≤
        min 7 (((atPoint 1046130 .blind).chan .m2).sq.miss + 1) ∧
      ((forced .ramp id).chan .m3).sq.compare = some { due := 60800000, kind := .forced, reached := false } ∧
      ((forced .ramp id).chan .m3).sq.profile[2]? = some (some seg2) ∧ 28 + 1 < seg2.repeats ∧ seg2.repeats ≤ 39 + 1 ∧
      ((forced .ramp id).chan .m3).sq.last ≤ 2 ∧
      ((forced .align (fun q => { q with seg := 1 })).chan .m3).sq.profile[1 + 1]? = some (some seg2) ∧ 1 < rampChan.sq.last ∧
      ((forced .align (fun q =>
        { q with seg := 1, profile := [none, none, some { seg2 with kind := .align }] })).chan .m3).sq.profile[1 + 1]? =
        some (some { seg2 with kind := .align }) := by decide

/-- The end of the last forced step of the range is START_FAILED; forced step 29 follows forced step 28 (R86, R87). -/
theorem test_forced :
    after (exec (.halfPeriodPoint .m3) (forced .ramp (fun q => { q with j := 39 })))
        (fun t => t.ch.m3.state == .stopped && t.ch.m3.sq.index == 3) = true ∧
      after (exec (.halfPeriodPoint .m3) (forced .ramp id))
        (fun t => t.ch.m3.sq.j == 29 && t.ch.m3.sq.index == 4 && t.ch.m3.sq.qualified == 0 &&
          t.ch.m3.sq.compare == some { due := 61200000, kind := .forced, reached := false }) = true := by decide

theorem witness_HandoverClosesTheLoop :
    (ramp.chan .m3).state = .ramp ∧ (ramp.chan .m3).curPlan.isSome = true ∧
      (ramp.chan .m3).sq.compare = some { due := 60800000, kind := .forced, reached := false } ∧ (ramp.chan .m3).sq.found = false ∧
      ramp.prot.bus = some busResult ∧ busResult.age < 4 ∧ (ramp.chan .m3).sq.blanking = 0 ∧
      (ramp.chan .m3).sq.prev = some (60594990, -21) ∧ notBefore 60596240 (60594990 : Time) = true ∧
      notBefore ramp.tb.now 60596240 = true ∧ (ramp.chan .m3).sq.lastComm = some 60400000 ∧
      (ramp.chan .m3).sq.lastZc = some 60196300 ∧ (ramp.chan .m3).sq.profile[2]? = some (some seg2) ∧
      (ramp.chan .m3).active.q ≤ (ramp.chan .m3).sq.qualified + 1 ∧ (ramp.chan .m3).active.q ≤ 15 ∧
      seg2.stepTicks 28 / 4 ≤ ticksSince 60596240 60400000 ∧ ticksSince 60596240 60400000 ≤ 3 * seg2.stepTicks 28 / 4 ∧
      ticksSince 60596240 60196300 ≤ 6291455 := by decide

/-- The row HANDOVER does what the sense result does; after the compare's due instant it changes nothing (R84, R93). -/
theorem test_handover_row :
    after (exec (.handover .m3 60596240) ramp) (fun t => t.ch.m3.state == .closed && t.ch.m3.sq.t60 == 24996) = true ∧
      after (exec (.handover .m3 60596240)
        (ramp.modCh .m3 (fun k => { k with sq := { k.sq with compare := some { due := 60600000, kind := .forced, reached := true } } })))
        (fun t => t.ch.m3.state == .ramp) = true := by decide

/-- The pump's sense result with another blanking and bus age. -/
def sensing (blank age : Nat) : State :=
  { ramp.modCh .m3 (fun k => { k with sq := { k.sq with blanking := blank } }) with
    prot := { Protection.reset with bus := some { busResult with age := age } } }

theorem witness_SenseResultsAreReferencedBlankedAndClassified :
    ramp.sched.conv = some senseConv ∧ (ramp.chan .m3).curPlan.map (·.seq) = some senseConv.entry.seq ∧
      later senseConv.start 60400000 = true ∧ (ramp.chan .m3).sq.compare.map (·.reached) = some false ∧
      (ramp.chan .m3).sq.index % 2 = 1 ∧ (ramp.chan .m3).sq.dir = .forward ∧
      ((sensing 1 3).chan .m3).sq.blanking = 1 ∧ ((sensing 0 4).prot.bus.map (·.age)) = some 4 ∧
      ((sensing 0 3).prot.bus.map (·.age)) = some 3 ∧ (1999 : Int) - (4000 / 2 : Nat) < 0 ∧ (0 : Int) ≤ 2000 - (4000 / 2 : Nat) := by
  decide

/-- The pump's sense result with another plan, another start or input, without a bus result, and outside RAMP and CLOSED. -/
def discarding (seq : Seq) (start : Time) (input : Nat) (bus : Option AuxResult) (st : ChanState) : State :=
  { ramp.modCh .m3 (fun k => { k with state := st }) with
    prot := { Protection.reset with bus := bus }
    sched :=
      { Scheduler.reset with
        conv := some { senseConv with entry := { senseConv.entry with seq := seq }, start := start, input := input } } }

/-- The discards of R88 and R89: each changes nothing of the sequencer; a start at the commutation reads the new floating input. -/
theorem test_sense_discards :
    let kept := fun (s : State) =>
      after (exec (.conversionComplete 2063) s) (fun t => t.ch.m3.sq == rampChan.sq && t.ch.m3.converted == 1)
    let bus := some busResult
    kept (discarding 12118 60599990 11 bus .ramp) = true ∧ kept (discarding 12119 60399999 11 bus .ramp) = true ∧
      kept (discarding 12119 60400000 10 bus .ramp) = true ∧ kept (discarding 12119 60599990 11 none .ramp) = true ∧
      kept (discarding 12119 60599990 11 bus .align) = true ∧ kept (discarding 12119 60599990 11 bus .ramp) = false ∧
      kept (discarding 12119 60400000 11 bus .ramp) = false ∧
      floatPhase 3 = .w := by decide

/-- A crossing of the circulation pump in CLOSED (ch.5 5.10), with its bus result and conversion. -/
def closedSense : State :=
  { closed.modCh .m2 (fun k => { k with curPlan := some { planOf 207 with seq := 207 } }) with
    prot := { Protection.reset with bus := some busResult }
    sched :=
      { Scheduler.reset with
        conv := some { senseConv with entry := { senseConv.entry with owner := .chan .m2, seq := 207 }, start := 1003740, input := 8 } } }

theorem witness_SenseResultsAreReferencedBlankedAndClassified_closed :
    (closedSense.chan .m2).state = .closed ∧ (closedSense.chan .m2).curPlan.map (·.seq) = some 207 ∧
      (closedSense.chan .m2).sq.lastComm = some 926250 ∧ later 1003740 926250 = true ∧ (closedSense.chan .m2).sq.blanking = 0 ∧
      (closedSense.chan .m2).sq.found = false ∧ (closedSense.chan .m2).sq.compare.map (·.reached) = some false ∧
      after (exec (.conversionComplete 2084) closedSense)
        (fun t => t.ch.m2.sq.found && t.ch.m2.sq.compare.map (·.kind) == some .predicted) = true := by decide

/-- The pump's crossing result of forced step 28 with another qualified-step count, previous result, last commutation and last crossing. -/
def crossing (n : Nat) (prev : Option (Time × Int)) (comm zc : Time) : State :=
  ramp.modCh .m3 (fun k =>
    { k with sq := { k.sq with qualified := n, prev := prev, lastComm := some comm, lastZc := some zc } })

/-- The crossing clauses of SenseResultsAreReferencedBlankedAndClassified in RAMP: below Q and at Q = 6, inside and outside the middle half
of a step of 400 000 ticks, with an interval that fits a prescaler and one that does not. -/
theorem witness_SenseResultsAreReferencedBlankedAndClassified_qualified :
    ((crossing 4 none 60400000 60196300).chan .m3).sq.prev = none ∧ seg2.stepTicks 28 = 400000 ∧
      ((crossing 4 (some (60594990, -21)) 60400000 60196300).chan .m3).active.q = 6 ∧ 4 + 1 < 6 ∧ 6 ≤ 5 + 1 ∧
      addTicks 60594990 (ticksSince 60599990 60594990 * 21 / (21 + 63)) = 60596240 ∧
      100000 ≤ ticksSince 60596240 60496240 ∧ ticksSince 60596240 60496240 ≤ 300000 ∧
      ¬100000 ≤ ticksSince 60596240 60496241 ∧ ¬ticksSince 60596240 60296239 ≤ 300000 ∧
      ticksSince 60596240 54304785 = 6291455 ∧ 6291455 < ticksSince 60596240 54304784 := by decide

/-- R92, R93: inside the middle half the count rises by one; early or one tick outside it returns to 0; at Q an interval above 6 291 455
returns it to 0 too, and one that fits hands over. -/
theorem test_qualified_steps :
    let run := fun (s : State) => exec (.conversionComplete 2063) s
    let is := fun (st : ChanState) (n : Nat) (t : State) => t.ch.m3.state == st && t.ch.m3.sq.qualified == n && t.ch.m3.sq.found
    let prev : Option (Time × Int) := some (60594990, -21)
    after (run (crossing 4 prev 60400000 60196300)) (is .ramp 5) = true ∧
      after (run (crossing 4 none 60400000 60196300)) (is .ramp 0) = true ∧
      after (run (crossing 4 prev 60496240 60196300)) (is .ramp 5) = true ∧
      after (run (crossing 4 prev 60496241 60196300)) (is .ramp 0) = true ∧
      after (run (crossing 5 prev 60400000 54304784)) (is .ramp 0) = true ∧
      after (run (crossing 5 prev 60400000 54304785)) (is .closed 6) = true := by decide

theorem witness_PeriodCloseFormsCurrentsAndCountsOverLimit :
    chainPlan.first ≠ chainPlan.middle ∧ chainPlan.first ≠ chainPlan.last ∧ chainPlan.middle ≠ chainPlan.last ∧
      (planOf 3).body = .vector chainPlan ∧ (record (.converted 2348 0 0) .late).placeA.raw = some 2348 ∧
      (record (.converted 2348 0 0) .late).placeB.raw = none ∧ (stepRecord 2410 true).sampled = some (0, true) ∧
      (atThresholds.chan .m1).rb.work = some (record .waiting .waiting) := by decide

/-- M1 at the close of the chain's period 3, whose three currents are valid and within the limit, with a count and live limit periods. -/
def closing (count : Nat) (limitPeriods : Nat) : State :=
  starting { vectorChan with
    live := some { chainCfg.liveValues with limitPeriods := limitPeriods }
    rb :=
      { Rebuilder.reset with
        work := some (record (.converted 2348 0 0) (.converted 1760 0 0)), overCount := count } }

theorem witness_PeriodCloseFormsCurrentsAndCountsOverLimit_more :
    (record (.converted 2348 0 0) (.converted 1760 0 0)).placeB.raw = some 1760 ∧
      (record .late (.converted 1760 0 0)).placeA.raw = none ∧ (record .late .late).placeB.raw = none ∧
      { stepRecord 0 true with placeA := .late }.placeA.raw = none ∧ (stepRecord 0 true).plan.stepC.isSome = true ∧
      ((closing 2 3).chan .m1).state.running = true ∧ ((closing 2 3).chan .m1).rb.work.isSome = true ∧
      ((closing 2 3).chan .m1).rb.overCount < ((closing 2 3).chan .m1).active.limitPeriods ∧
      ((atThresholds.chan .m1).active.limitPeriods ≤ (atThresholds.chan .m1).rb.overCount) := by decide

/-- A live change that lowers the limit periods to the count trips at the next close, whatever its currents were; one that leaves them above
it does not, and the count returns to 0 (R131, R132). -/
theorem test_live_limit_periods :
    after (exec (.channelPeriodStart .m1) (closing 2 2))
        (fun t => t.ch.m1.state == .tripped && t.ch.m1.trip.map (·.first) == some .currentLimit) = true ∧
      after (exec (.channelPeriodStart .m1) (closing 2 3)) (fun t => t.ch.m1.state == .vector && t.ch.m1.rb.overCount == 0) = true := by
  decide

/-- M1 at a close with report rate R and report count n, the outbound queue as given. -/
def reporting (r n : Nat) (out : List OutFrame) : State :=
  { starting { vectorChan with
      active := { chainCfg with report := r }
      rb := { Rebuilder.reset with work := some (record (.converted 2348 0 0) (.converted 1760 0 0)), report := n } } with
    link := { Link.reset with tx := .sending [0xD5] .nothing 800, out := out } }

/-- R133, R171: at R = 0 the count is 0, below R it rises, and a due report joins the tail, replaces the one that waits, or is skipped. -/
theorem test_report_count :
    let closed := fun (r n : Nat) (out : List OutFrame) => (reporting r n out).closePeriod .m1
    let ev := OutFrame.event (staleRecord .m2)
    let old := OutFrame.report .m1 []
    (closed 0 7 []).ch.m1.rb.report = 0 ∧ (closed 3 1 []).ch.m1.rb.report = 2 ∧ (closed 3 1 []).link.out = [] ∧
      (closed 3 2 []).ch.m1.rb.report = 0 ∧ (closed 3 2 [ev]).link.out.map (·.isReport .m1) = [false, true] ∧
      (closed 3 2 [old, ev]).link.out.map (·.isReport .m1) = [true, false] ∧ (closed 3 2 [old, ev]).link.replaced.m1 = 1 ∧
      (closed 3 2 (List.replicate 24 ev)).link.skipped.m1 = 1 ∧ (closed 3 2 (List.replicate 24 ev)).ch.m1.rb.report = 0 := by decide

/-- The chain with phase U at the beginning of its top interval, at its end, or with a turn-on pending. -/
def edge (edges : Nat) (top bottom : Bool) (pend : Option Time) : State :=
  { spin with
    tb := { spin.tb with now := 4941 }
    ch :=
      spin.ch.set .m1
        { vectorChan with
          curPlan := some (planOf 3), nextPlan := some (planOf 4)
          gates :=
            { vectorChan.gates with
              u := { PhaseGate.reset with edges := edges, top := top, bottom := bottom, topPend := pend, bottomOff := some ⟨4877, 64⟩ } } } }

theorem witness_GateEdgesKeepDeadTime :
    (edge 0 false true none).clockRuns = true ∧ ((edge 0 false true none).chan .m1).latest = some 1000 ∧
      later (addTicks 1000 (chainPlan.up.get .u)) 4941 = false ∧ 64 < 2 * 2500 - 2 * (chainPlan.cmp.get .u).c ∧
      later (addTicks 1000 (5000 - chainPlan.dn.get .u)) 4941 = false ∧ addTicks 1000 (5000 - chainPlan.dn.get .u) = 4941 ∧
      (((edge 1 true false none).chan .m1).gates.get .u).edges = 1 ∧
      (((edge 0 false false (some 4941)).chan .m1).gates.get .u).topPend = some 4941 ∧ ticksSince 4941 4877 = 64 := by decide

/-- A next step plan whose top interval begins 32 ticks into the period. -/
def shortGap : Plan :=
  { planOf 4 with
    body := .step { index := 0, duty := 0, dither := 0, cmp := ⟨32, 0, 32⟩, shortA := false, senseShort := false } }

/-- The first clause of GateEdgesKeepDeadTime for a step plan, whose C is 1750 at a duty of 30 % and H = 2500, and the absorbed intervals:
64 ticks or less of a top interval, and of the gap to the next one. -/
theorem witness_GateEdgesKeepDeadTime_step :
    (rampChan.curPlan.map (·.body)) = some (.step
        { index := 3, duty := 19661, dither := 7, cmp := ⟨1749, 15, 1750⟩, shortA := false, senseShort := false }) ∧
      highPhase 3 = .v ∧ 2 * 2500 - 2 * 2468 ≤ 64 ∧ ¬2 * 2500 - 2 * 2467 ≤ 64 ∧
      gapAbsorbed 2500 64 32 (some shortGap) .v = true ∧
      gapAbsorbed 2500 64 33 (some shortGap) .v = false := by
  decide

/-- The dead time is the one in force at the turn-off (R3, R65): with D = 65 then, the turn-on waits one tick more. -/
theorem test_dead_time_of_the_turn_off :
    (({ PhaseGate.reset with topPend := some 4941, bottomOff := some ⟨4877, 64⟩ } : PhaseGate).turnOn .top 4941).top = true ∧
      ({ PhaseGate.reset with topPend := some 4941, bottomOff := some ⟨4877, 65⟩ } : PhaseGate).turnOn .top 4941 =
        { PhaseGate.reset with topPend := some 4942, bottomOff := some ⟨4877, 65⟩ } := by decide

/-- R65: a turn-on whose dead time has a tick left waits for its end; with the complement on, which no run reaches, it is dropped (log 31). -/
theorem witness_GateEdgesKeepDeadTime_waits :
    let waits := (edge 0 false false (some 4940)).modCh .m1 (fun k => { k with
      gates := { k.gates with u := { k.gates.u with bottomOff := some ⟨4878, 64⟩ } } })
    let blocked := edge 0 false true (some 4941)
    (waits.ch.m1.gates.u.topPend = some 4940 ∧ waits.ch.m1.gates.u.bottom = false ∧ ticksSince waits.tb.now 4878 < 64) ∧
      after (exec (.pendingTurnOn .m1 .u .top) waits)
        (fun t => !t.ch.m1.gates.u.top && t.ch.m1.gates.u.topPend == some 4942) = true ∧
      after (exec (.pendingTurnOn .m1 .u .top) blocked)
        (fun t => !t.ch.m1.gates.u.top && t.ch.m1.gates.u.bottom && t.ch.m1.gates.u.topPend == none) = true := by decide

theorem witness_ConversionStartsOrTheEntryIsLate :
    waiting.clockRuns = true ∧ waiting.sched.conv = none ∧
      arbiter (waiting.sched.timeline.filter (fun x => notBefore waiting.tb.now x.due)) = some shuntEntry ∧
      waiting.sched.timeline.find? (fun x => x.slot == 0) = some shuntEntry ∧
      later (addTicks shuntEntry.due 41) waiting.tb.now = false ∧ later (addTicks shuntEntry.due 42) waiting.tb.now = true := by decide

/-- A channel's request past its tolerance, with the working record of a plan. -/
def lateEntry (p : Purpose) (seq : Seq) : State :=
  { upWith (fun k => { k with rb := { k.rb with work := some (record .waiting .waiting) } }) with
    sched := { Scheduler.reset with timeline := [{ shuntEntry with purpose := p, seq := seq, tol := some 41 }] } }

/-- LATE is noted at the place of the request, in the record of its own plan (R125). -/
theorem test_late_places :
    let work := fun (s : State) (w : WorkRecord) => after (exec (.late 0) s) (fun t => t.ch.m1.rb.work == some w && t.ch.m1.late == 1)
    work (lateEntry .shuntA 3) (record .late .waiting) = true ∧ work (lateEntry .shuntB 3) (record .waiting .late) = true ∧
      work (lateEntry .sense 3) (record .waiting .late) = true ∧ work (lateEntry .shuntA 4) (record .waiting .waiting) = true ∧
      work (lateEntry .cal 3) (record .waiting .waiting) = true := by decide

/-- Inputs (R101): the floating phase of M3 in step 3, which is W (R76), the shunt of M1, SPARE2. -/
theorem test_inputs :
    ramp.inputOf senseConv.entry = 11 ∧ up.inputOf shuntEntry = 0 ∧
      up.inputOf { busEntry with purpose := .aux .spare2 } = 15 := by decide

/-- A bus result above the limit trips a running channel with BUS_OVER (R145). -/
theorem test_bus_over :
    after (exec (.conversionComplete 3001)
        { spin with
          prot := { Protection.reset with busOver := 3000 }
          sched := { Scheduler.reset with conv := some ⟨busEntry, 5930, 12, 0, false⟩ } })
      (fun t => t.ch.m1.trip == some { first := .busOver, seq := 1, further := 0 }) = true := by decide

/-- A conversion in progress for an entry. -/
def converting (e : Entry) : State := { up with sched := { Scheduler.reset with conv := some ⟨e, 5930, 12, 2, false⟩ } }

theorem witness_ConversionCompletesAndReachesItsOwner :
    (converting busEntry).sched.conv = some ⟨busEntry, 5930, 12, 2, false⟩ ∧ busEntry.owner = .aux 0 ∧ busEntry.purpose = .aux .bus ∧
      { busEntry with purpose := .aux .temp }.purpose = .aux .temp ∧ { shuntEntry with purpose := .cal }.purpose = .cal ∧
      shuntEntry.owner = .chan .m1 ∧ (converting busEntry).prot.busOver < 4096 ∧
      ({ Protection.reset with busOver := 4094 } : Protection).busOver < (4095 : BitVec 12).toNat ∧
      (0 : BitVec 12).toNat < ({ Protection.reset with busUnder := 1 } : Protection).busUnder ∧
      ({ Protection.reset with tempTrip := 4094 } : Protection).tempTrip < (4095 : BitVec 12).toNat ∧ ((calibrated.modCh .m1 (fun k =>
        { k with curPlan := some (makeCalPlan k.active 2500 0) })).chan .m1).curPlan.map (·.seq) = some shuntEntry.seq := by decide

/-- A shunt conversion in progress for a working record of a vector or a step period. -/
def shunting (w : WorkRecord) (p : Plan) (commutated : Bool) : State :=
  { upWith (fun k => { k with state := .vector, curPlan := some p, rb := { k.rb with work := some w } }) with
    sched := { Scheduler.reset with conv := some ⟨{ shuntEntry with seq := 3 }, 5960, 0, 0, commutated⟩ } }

theorem witness_ConversionCompletesAndReachesItsOwner_shunt :
    ((shunting (record .waiting .waiting) (planOf 3) false).chan .m1).rb.work = some (record .waiting .waiting) ∧
      (record .waiting .waiting).plan.seq = { shuntEntry with seq := 3 }.seq ∧ (record .waiting .waiting).plan.seq ≠ shuntEntry.seq ∧
      (planOf 3).body = .vector chainPlan ∧ { shuntEntry with purpose := .shuntB }.purpose = .shuntB ∧
      (stepRecord 0 true).plan.stepC.isSome = true ∧ (up.chan .m1).rb.work = none ∧
      { busEntry with purpose := .aux .spare1 }.purpose = .aux .spare1 ∧ { busEntry with purpose := .aux .spare2 }.purpose = .aux .spare2 ∧
      up.prot.tempCond = .normal ∧ ({ Protection.reset with tempWarn := 4094 } : Protection).tempWarn < (4095 : BitVec 12).toNat := by
  decide

/-- A SHUNT_A result takes its place (R125), a step plan's with the roles at its start (R129): the plan's own, or those one place back. -/
theorem test_shunt_result :
    let step := { stepRecord 0 true with plan := { (stepRecord 0 true).plan with seq := 3 } }
    let place := Place.converted 2348 5960 1
    after (exec (.conversionComplete 2348) (shunting (record .waiting .late) (planOf 3) false))
        (fun t => t.ch.m1.rb.work == some (record place .late) && t.ch.m1.converted == 1) = true ∧
      after (exec (.conversionComplete 2348) (shunting step step.plan false))
        (fun t => t.ch.m1.rb.work == some { step with placeA := place, sampled := some (1, true) }) = true ∧
      after (exec (.conversionComplete 2348) (shunting step step.plan true))
        (fun t => t.ch.m1.rb.work == some { step with placeA := place, sampled := some (0, false) }) = true := by decide

theorem witness_FaultInputTurnsTheGatesOff :
    spin.clockRuns = true ∧ spin.prot.levels.get .m1 = false ∧ (spin.chan .m1).state.driving = true ∧
      (calibrated.chan .m1).state = .calibrating ∧
      ((upWith (fun k => { k with state := .tripped, safe := some .short })).chan .m1).safe.isSome = true := by decide

theorem witness_SlowStepEvaluatesHeartbeatThenExpiry :
    (∀ s ∈ [supervised 98 0 none none, supervised 19 0 none (some 255), supervised 19 0 (some 3) (some 4), supervised 99 0 none none,
        supervised 18 0 none (some 0), supervised 99 1 none none, supervised 100 0 none none,
        supervised 99 0 (some 3) (some 4), supervised 99 1 (some 3) (some 4), supervised 100 1 none none],
      s.sup.enabled = true ∧ s.sup.running = true ∧ s.sup.count < 2000 ∧ 10 ≤ s.sup.te ∧ s.sup.tc = 20 ∧ s.sup.te = 100) := by
  decide

/-- A heartbeat of the wrong count at the step that reaches Te leaves two records (R155, R156). -/
theorem test_wrong_count_at_te :
    after (exec .slowStep { supervised 99 0 (some 3) (some 4) with link := { Link.reset with tx := .sending [0] .nothing 800 } })
      (fun t => t.sup.stage == 1 && t.sup.count == 0 && t.sup.heartbeat == none &&
        t.link.events.map (fun r => (r.code, r.detail)) == [(.supervisionLate, 3), (.supervisionSequence, 772)]) = true := by decide

/-- A receiver that has kept some characters. -/
def collecting (cs : List Byte) (left : Nat) : State := { up with link := { Link.reset with rx := cs, rxLeft := left } }

set_option maxRecDepth 8000 in
theorem witness_CharactersAreHuntedCollectedAndTimedOut :
    up.isRunning = true ∧ up.tb.dev ≠ .quiet ∧ up.link.rx = [] ∧ up.tb.wakeLeft = none ∧
      { up with tb := { up.tb with dev := .quiet } }.tb.dev = .quiet ∧
      (collecting [0xD5, 0, 1, 0x2A] 3200).link.rx ++ [0x19] = frameChars 1 0x2A [] ∧
      (collecting [0xD5, 0] 0).link.rx ≠ [] ∧ (0xD5 : Byte) ∉ (collecting [0xD5, 0] 0).link.rx.tail ∧
      (collecting [0xD5, 0] 0).link.rxLeft = 0 ∧ up.link.rxBuf.length < 2 := by decide

set_option maxRecDepth 8000 in
/-- The other arrivals: one mid-frame, a third frame, a length above 56, a wrong CRC character, and characters that a rescan examines. -/
theorem witness_CharactersAreHuntedCollectedAndTimedOut_more :
    (collecting [0xD5, 2, 1] 3200).link.rx = 0xD5 :: [2, 1] ∧ collected ([2, 1] ++ [0x2A]) = .incomplete ∧
      { Link.reset with rxBuf := List.replicate 2 ⟨1, 0, []⟩ }.rxBuf.length = 2 ∧ 56 < (57 : Byte).toNat ∧ (57 : Byte) ≠ 0xD5 ∧
      (collecting [0xD5, 0, 1, 0x2B] 3200).link.rx = 0xD5 :: 0 :: 1 :: 0x2B :: [] ∧ (0x19 : Byte) ≠ crc [0, 1, 0x2B] ∧
      (0xD5 : Byte) ∉ ([1, 0x2B] : List Byte) ∧ (collecting [0xD5, 0xD5, 0] 0).link.rx ≠ [] := by decide

set_option maxRecDepth 8000 in
/-- A mid-frame character is kept; the third valid frame is OVERRUN; a framing error rescans to the frame that stands behind the spike
(R165, R166, R168). -/
theorem test_receiver :
    after (exec (.characterArrival 0x2A false) (collecting [0xD5, 2, 1] 1))
        (fun t => t.link.rx == [0xD5, 2, 1, 0x2A] && t.link.rxLeft == 3200) = true ∧
      after (exec (.characterArrival 0x19 false)
          { up with link := { Link.reset with rx := [0xD5, 0, 1, 0x2A], rxBuf := List.replicate 2 ⟨1, 0, []⟩ } })
        (fun t => t.link.rxBuf.length == 2 && t.link.rx == [] && t.link.events.map (fun r => (r.code, r.detail)) == [(.linkError, 3)]) = true ∧
      after (exec (.characterArrival 0 true) (collecting [0xD5, 2, 0xD5, 0, 1] 1)) (fun t => t.link.rx == [0xD5, 0, 1]) = true := by
  decide

/-- A device whose transmitter is in its gap, with frames and records waiting. -/
def gapped (left : Nat) (out : List OutFrame) (events : List EventRecord) : State :=
  { up with link := { Link.reset with tx := .gap left, out := out, events := events } }

theorem witness_FramesGapsAndWakesEnd :
    (sending .quietEntry).link.tx = .sending [0xD5] .quietEntry 800 ∧ (gapped 160 [] []).link.tx = .gap 160 ∧
      (gapped 0 [] []).link.tx = .gap 0 ∧ (gapped 0 [] []).mayTransmit = true ∧ State.reset.mayTransmit = false ∧
      (gapped 0 [.event (staleRecord .m1)] []).link.out = [.event (staleRecord .m1)] ∧
      (gapped 0 [.event (staleRecord .m1)] [staleRecord .m2]).ready.moreToCome = false ∧
      (gapped 0 [] [staleRecord .m2]).moreToCome = false ∧
      ({ gapped 0 [.event (staleRecord .m1)] [staleRecord .m2] with tb := { up.tb with masterNext := 6000 } } :
        State).ready.moreToCome = true ∧
      { up with tb := { up.tb with dev := .quiet, wakeLeft := some 16000 } }.tb.wakeLeft = some 16000 ∧
      (∀ c ∈ Chan.all, ((stoppedPair 0).chan c).state = .unconfigured ∨ ((stoppedPair 0).chan c).state = .stopped) ∧
      up.isRunning = true := by decide

/-! ### One instant on the link (R170, R172, R173) -/

/-- The characters being sent. -/
def charsOf (t : State) : List Byte :=
  match t.link.tx with
  | .sending cs _ _ => cs
  | _ => []

/-- A STOP that aborts a calibration: the record, queued while the transmitter is IDLE, is begun before the reply (R173). -/
theorem test_record_before_reply :
    after (exec (.stopCoast 7 [1, 0]) calibrated)
      (fun t => (charsOf t)[2]? == some 0x81 && t.link.out == [.reply 7 [0x25, 0] .nothing]) = true := by decide

/-- One place left and a report that closes now: the place is the report's, and no request is taken (R169, R170). -/
theorem test_report_claims_the_last_place :
    let s := starting
      { vectorChan with
        active := { chainCfg with report := 1 }, rb := { Rebuilder.reset with work := some (record .late .late) } }
    let full := { s with link := { Link.reset with out := List.replicate 23 (.event (staleRecord .m2)) } }
    full.canTake = false ∧ ({ full with tb := { full.tb with now := 5999 } } : State).canTake = true := by decide

/-- A close that reports and warns: the record moves at once behind the report (R173, log 41). -/
theorem test_record_behind_report :
    let s := starting
      { vectorChan with
        active := { chainCfg with report := 1, s1 := 1 }
        rb := { Rebuilder.reset with work := some (record .late .late) } }
    after (exec (.channelPeriodStart .m1) s)
      (fun t => t.link.out.length == 1 && t.link.events.length == 1 &&
        after (exec (.halfPeriodPoint .m1) t) (fun u => (charsOf u)[2]? == some 0x82 && u.link.events == [] && u.link.out.length == 1)) =
      true := by decide

end Sys2Proof.Tests
end

/-!
What an operation keeps of a motor channel: the layer under the invariant of R23, R137 and R140 and under the statement of who writes the
zero offset. `Same` is bookkeeping, `RunsOn` what a run may do, `Keeps` what both statements need; each is a preorder, so that an
operation's lemma is a chain of the lemmas of its parts.
-/

namespace Sys2Proof.Motor

open Sys2Proof Sys2Proof.Machine

/-! ### One channel -/

/-- Every switch off and none waiting to turn on. -/
def AllOff (g : Gates) : Prop :=
  ∀ x, (g.get x).top = false ∧ (g.get x).bottom = false ∧ (g.get x).topPend = none ∧ (g.get x).bottomPend = none

/-- Every top off and none waiting to turn on. -/
def TopsOff (g : Gates) : Prop := ∀ x, (g.get x).top = false ∧ (g.get x).topPend = none

/-- One channel's part of `State.channelsFit`. -/
def Fits (k : Channel) : Prop :=
  k.gatesFit ∧ (k.safe.isSome = true ↔ k.state = .tripped) ∧ (k.trip.isSome = true ↔ k.state = .tripped)

theorem channelsFit_iff (s : State) : s.channelsFit ↔ ∀ c, Fits (s.chan c) := Iff.rfl

theorem AllOff.topsOff {g : Gates} (h : AllOff g) : TopsOff g := fun x => ⟨(h x).1, (h x).2.2.1⟩

theorem allOff_allOff (g : Gates) (now : Time) (d : Nat) : AllOff (Gates.allOff g now d) := by
  intro x
  simpa [Gates.allOff] using (g.get x).down_outputs now d

theorem topsOff_bottomsOn (g : Gates) (now : Time) (d : Nat) : TopsOff (Gates.bottomsOn g now d) := by
  intro x
  simp only [Gates.bottomsOn, PerPhase.get_map, PhaseGate.bottomAt]
  split <;> exact ⟨rfl, rfl⟩

theorem gatesFit_of_idle {k : Channel} (h : k.state.idle = true) :
    k.gatesFit ↔ AllOff k.gates ∧ k.curPlan = none ∧ k.nextPlan = none := by
  unfold Channel.gatesFit
  cases hk : k.state <;> simp [ChanState.idle, hk] at h <;> rfl

theorem gatesFit_of_running {k : Channel} (h : k.state.running = true) : k.gatesFit := by
  unfold Channel.gatesFit
  cases hk : k.state <;> simp [ChanState.running, hk] at h <;> trivial

theorem gatesFit_of_calibrating {k : Channel} (h : k.state = .calibrating) :
    k.gatesFit ↔ AllOff k.gates ∧ (∀ p, k.curPlan = some p → p.body = .cal) ∧ ∀ p, k.nextPlan = some p → p.body = .cal := by
  unfold Channel.gatesFit
  rw [h]; rfl

theorem gatesFit_of_braking {k : Channel} (h : k.state = .braking) :
    k.gatesFit ↔ TopsOff k.gates ∧ k.curPlan = none ∧ k.nextPlan = none := by
  unfold Channel.gatesFit
  rw [h]; rfl

theorem gatesFit_of_tripped {k : Channel} (h : k.state = .tripped) :
    k.gatesFit ↔ TopsOff k.gates ∧ (k.curPlan = none ∧ k.nextPlan = none) ∧ (k.safe = some .openAll → AllOff k.gates) := by
  unfold Channel.gatesFit
  rw [h]; rfl

theorem gatesFit_of_stopped {k : Channel} (h : k.state = .stopped) :
    k.gatesFit ↔ AllOff k.gates ∧ k.curPlan = none ∧ k.nextPlan = none := gatesFit_of_idle (by rw [h]; rfl)

theorem ne_tripped_of_running {x : ChanState} (h : x.running = true) : x ≠ .tripped := by
  rintro rfl; cases h

theorem ne_tripped_of_driving {x : ChanState} (h : x.driving = true) : x ≠ .tripped := by
  rintro rfl; cases h

theorem driving_iff (x : ChanState) : x.driving = true ↔ x.running = true ∨ x = .braking := by
  cases x <;> decide

/-! ### Bookkeeping -/

/-- The same switches are on and the same wait to turn on. -/
def SameSwitches (a b : Gates) : Prop :=
  ∀ x, (b.get x).top = (a.get x).top ∧ (b.get x).bottom = (a.get x).bottom ∧ (b.get x).topPend = (a.get x).topPend ∧
    (b.get x).bottomPend = (a.get x).bottomPend

theorem SameSwitches.refl (g : Gates) : SameSwitches g g := fun _ => ⟨rfl, rfl, rfl, rfl⟩

theorem SameSwitches.trans {a b c : Gates} (h : SameSwitches a b) (h' : SameSwitches b c) : SameSwitches a c := by
  intro x
  obtain ⟨t, b, tp, bp⟩ := h x
  obtain ⟨t', b', tp', bp'⟩ := h' x
  exact ⟨t'.trans t, b'.trans b, tp'.trans tp, bp'.trans bp⟩

theorem SameSwitches.allOff {a b : Gates} (h : SameSwitches a b) (ha : AllOff a) : AllOff b := by
  intro x
  obtain ⟨ht, hb, htp, hbp⟩ := h x
  obtain ⟨t, b, tp, bp⟩ := ha x
  exact ⟨ht.trans t, hb.trans b, htp.trans tp, hbp.trans bp⟩

theorem SameSwitches.topsOff {a b : Gates} (h : SameSwitches a b) (ha : TopsOff a) : TopsOff b := by
  intro x
  obtain ⟨ht, _, htp, _⟩ := h x
  obtain ⟨t, tp⟩ := ha x
  exact ⟨ht.trans t, htp.trans tp⟩

/-- Two channels that differ in bookkeeping alone. -/
structure Same (k k' : Channel) : Prop where
  state : k'.state = k.state
  safe : k'.safe = k.safe
  trip : k'.trip = k.trip
  z : k'.z = k.z
  curPlan : k'.curPlan = k.curPlan
  nextPlan : k'.nextPlan = k.nextPlan
  gates : SameSwitches k.gates k'.gates

theorem Same.refl (k : Channel) : Same k k := ⟨rfl, rfl, rfl, rfl, rfl, rfl, .refl _⟩

theorem Same.trans {a b c : Channel} (h : Same a b) (h' : Same b c) : Same a c :=
  ⟨h'.state.trans h.state, h'.safe.trans h.safe, h'.trip.trans h.trip, h'.z.trans h.z, h'.curPlan.trans h.curPlan,
    h'.nextPlan.trans h.nextPlan, h.gates.trans h'.gates⟩

theorem Same.gatesFit {k k' : Channel} (h : Same k k') (hk : k.gatesFit) : k'.gatesFit := by
  unfold Channel.gatesFit at hk ⊢
  rw [h.state, h.safe, h.curPlan, h.nextPlan]
  cases hs : k.state <;> simp only [hs] at hk ⊢
  case unconfigured => exact ⟨h.gates.allOff hk.1, hk.2⟩
  case stopped => exact ⟨h.gates.allOff hk.1, hk.2⟩
  case calibrating => exact ⟨h.gates.allOff hk.1, hk.2⟩
  case braking => exact ⟨h.gates.topsOff hk.1, hk.2⟩
  case tripped => exact ⟨h.gates.topsOff hk.1, hk.2.1, fun ho => h.gates.allOff (hk.2.2 ho)⟩

theorem same_age (k : Channel) (now : Time) : Same k (k.age now) := by
  refine ⟨rfl, rfl, rfl, rfl, rfl, rfl, fun x => ?_⟩
  cases x <;> exact ⟨rfl, rfl, rfl, rfl⟩

/-! ### What an operation keeps -/

/-- The zero offset stays, and gates, plans, trip record and safe state that fitted the channel state fit it still. -/
structure Keeps (k k' : Channel) : Prop where
  z : k'.z = k.z
  fits : Fits k → Fits k'

theorem Keeps.refl (k : Channel) : Keeps k k := ⟨rfl, id⟩

theorem Keeps.trans {a b c : Channel} (h : Keeps a b) (h' : Keeps b c) : Keeps a c :=
  ⟨h'.z.trans h.z, h'.fits ∘ h.fits⟩

theorem Same.keeps {k k' : Channel} (h : Same k k') : Keeps k k' := by
  refine ⟨h.z, fun ⟨hg, hsafe, htrip⟩ => ⟨h.gatesFit hg, ?_, ?_⟩⟩
  · rw [h.safe, h.state]; exact hsafe
  · rw [h.trip, h.state]; exact htrip

/-- An operation outside TRIPPED that leaves trip record and safe state alone has the gates and plans to account for. -/
theorem Keeps.of_untripped {k k' : Channel} (hk : k.state ≠ .tripped) (hk' : k'.state ≠ .tripped) (hsafe : k'.safe = k.safe)
    (htrip : k'.trip = k.trip) (hz : k'.z = k.z) (hg : k.gatesFit → k'.gatesFit) : Keeps k k' := by
  refine ⟨hz, fun ⟨hfit, hs, ht⟩ => ⟨hg hfit, ?_, ?_⟩⟩
  · rw [hsafe, hs]; exact iff_of_false hk hk'
  · rw [htrip, ht]; exact iff_of_false hk hk'

/-- What a running channel may do without leaving the running states: everything but touch trip record, safe state and zero offset. -/
structure RunsOn (k k' : Channel) : Prop where
  running : k'.state.running = true
  safe : k'.safe = k.safe
  trip : k'.trip = k.trip
  z : k'.z = k.z

theorem RunsOn.refl {k : Channel} (h : k.state.running = true) : RunsOn k k := ⟨h, rfl, rfl, rfl⟩

theorem RunsOn.trans {a b c : Channel} (h : RunsOn a b) (h' : RunsOn b c) : RunsOn a c :=
  ⟨h'.running, h'.safe.trans h.safe, h'.trip.trans h.trip, h'.z.trans h.z⟩

theorem Same.runsOn {k k' : Channel} (h : Same k k') (hk : k.state.running = true) : RunsOn k k' :=
  ⟨by rw [h.state]; exact hk, h.safe, h.trip, h.z⟩

theorem RunsOn.keeps {k k' : Channel} (h : RunsOn k k') (hk : k.state.running = true) : Keeps k k' :=
  .of_untripped (ne_tripped_of_running hk) (ne_tripped_of_running h.running) h.safe h.trip h.z
    fun _ => gatesFit_of_running h.running

/-! ### All channels -/

/-- Every channel differs in bookkeeping alone. -/
def SameAll (s t : State) : Prop := ∀ c, Same (s.chan c) (t.chan c)

/-- Every channel keeps its zero offset and its fit. -/
def KeepsAll (s t : State) : Prop := ∀ c, Keeps (s.chan c) (t.chan c)

/-- One channel runs on, the others differ in bookkeeping alone. -/
structure RunsOnAt (c : Chan) (s t : State) : Prop where
  own : RunsOn (s.chan c) (t.chan c)
  others : ∀ x, x ≠ c → Same (s.chan x) (t.chan x)

theorem SameAll.refl (s : State) : SameAll s s := fun _ => .refl _

theorem SameAll.trans {a b c : State} (h : SameAll a b) (h' : SameAll b c) : SameAll a c := fun x => (h x).trans (h' x)

theorem SameAll.keeps {s t : State} (h : SameAll s t) : KeepsAll s t := fun c => (h c).keeps

theorem SameAll.runsOn {s t : State} {c : Chan} (h : SameAll s t) (hc : (s.chan c).state.running = true) : RunsOnAt c s t :=
  ⟨(h c).runsOn hc, fun x _ => h x⟩

theorem KeepsAll.refl (s : State) : KeepsAll s s := fun _ => .refl _

theorem KeepsAll.trans {a b c : State} (h : KeepsAll a b) (h' : KeepsAll b c) : KeepsAll a c := fun x => (h x).trans (h' x)

theorem KeepsAll.channelsFit {s t : State} (h : KeepsAll s t) (hs : s.channelsFit) : t.channelsFit := by
  rw [channelsFit_iff] at hs ⊢
  exact fun c => (h c).fits (hs c)

theorem RunsOnAt.trans {c : Chan} {s t u : State} (h : RunsOnAt c s t) (h' : RunsOnAt c t u) : RunsOnAt c s u :=
  ⟨h.own.trans h'.own, fun x hx => (h.others x hx).trans (h'.others x hx)⟩

theorem RunsOnAt.same {c : Chan} {s t u : State} (h : RunsOnAt c s t) (h' : SameAll t u) : RunsOnAt c s u :=
  h.trans (h'.runsOn h.own.running)

theorem RunsOnAt.keeps {c : Chan} {s t : State} (h : RunsOnAt c s t) (hc : (s.chan c).state.running = true) : KeepsAll s t := by
  intro x
  by_cases hx : x = c
  · subst hx; exact h.own.keeps hc
  · exact (h.others x hx).keeps

/-- A state with the same channels. -/
theorem sameAll_of_ch {s t : State} (h : t.ch = s.ch) : SameAll s t := by
  intro c
  rw [show t.chan c = s.chan c by simp [State.chan, h]]
  exact .refl _

theorem sameAll_modCh {s : State} {c : Chan} {f : Channel → Channel} (h : ∀ k, Same k (f k)) : SameAll s (s.modCh c f) := by
  intro x
  rw [State.chan_modCh]
  split
  · exact h _
  · exact .refl _

theorem keepsAll_modCh {s : State} {c : Chan} {f : Channel → Channel} (h : Keeps (s.chan c) (f (s.chan c))) :
    KeepsAll s (s.modCh c f) := by
  intro x
  rw [State.chan_modCh]
  split
  · rename_i hx; subst hx; exact h
  · exact .refl _

theorem runsOnAt_modCh {s : State} {c : Chan} {f : Channel → Channel} (h : RunsOn (s.chan c) (f (s.chan c))) :
    RunsOnAt c s (s.modCh c f) := by
  refine ⟨by rw [State.chan_modCh_same]; exact h, fun x hx => ?_⟩
  rw [State.chan_modCh_other _ _ hx]
  exact .refl _

theorem sameAll_modSq (s : State) (c : Chan) (f : StepSeq → StepSeq) : SameAll s (s.modSq c f) :=
  sameAll_modCh fun _ => ⟨rfl, rfl, rfl, rfl, rfl, rfl, .refl _⟩

theorem sameAll_modRb (s : State) (c : Chan) (f : Rebuilder → Rebuilder) : SameAll s (s.modRb c f) :=
  sameAll_modCh fun _ => ⟨rfl, rfl, rfl, rfl, rfl, rfl, .refl _⟩

theorem sameAll_queueEvent (s : State) (e : EventCode) (c : Option Chan) (d : Nat) : SameAll s (s.queueEvent e c d) :=
  sameAll_of_ch rfl

theorem sameAll_settle (s : State) : SameAll s s.settle := sameAll_of_ch s.settle_ch

theorem sameAll_elapse (s : State) (n : Nat) : SameAll s (s.elapse n) := by
  intro c
  rcases s.chan_elapse n c with h | h <;> rw [h]
  · exact .refl _
  · exact same_age _ _

theorem sameAll_waitUntil (s : State) (t : Time) : SameAll s (s.waitUntil t) := by
  rcases s.waitUntil_cases t with ⟨_, h⟩ | ⟨_, h⟩ <;> rw [h]
  · exact .refl _
  · exact sameAll_elapse _ _

/-! ### The ends of a run and the trip causes -/

theorem sameAll_flushAll (s : State) : SameAll s s.flushAll := by
  intro c
  cases c <;> exact ⟨rfl, rfl, rfl, rfl, rfl, rfl, .refl _⟩

/-- Where one channel is rewritten and the others stay, that channel's part decides. -/
theorem keepsAll_of_one {s t : State} {c : Chan} (hc : Keeps (s.chan c) (t.chan c))
    (ho : ∀ x, x ≠ c → t.chan x = s.chan x) : KeepsAll s t := by
  intro x
  by_cases hx : x = c
  · subst hx; exact hc
  · rw [ho x hx]; exact .refl _

theorem keepsAll_toStopped {s : State} {c : Chan} (h : (s.chan c).state ≠ .tripped) : KeepsAll s (s.toStopped c) := by
  refine keepsAll_of_one ?_ fun x hx => s.chan_toStopped_other hx
  rw [State.chan_toStopped_same, State.chan_endRun_same]
  exact .of_untripped h (by simp) rfl rfl rfl fun _ => (gatesFit_of_stopped rfl).2 ⟨allOff_allOff _ _ _, rfl, rfl⟩

theorem keepsAll_calFailed {s : State} {c : Chan} (f : CalFailure) (h : (s.chan c).state ≠ .tripped) :
    KeepsAll s (s.calFailed c f) :=
  (keepsAll_toStopped h).trans (sameAll_queueEvent _ _ _ _).keeps

/-- The gates at a trip have their tops off, also those of a braking channel that a SHORT leaves as they are (R138, R139). -/
theorem topsOff_tripGates {k : Channel} (hk : k.state.driving = true) (hfit : k.gatesFit) (safe : SafeState) (now : Time) (d : Nat) :
    TopsOff (tripGates (k.state == .braking) safe k.gates now d) := by
  cases safe with
  | openAll => exact (allOff_allOff _ _ _).topsOff
  | short =>
    rcases (driving_iff _).1 hk with hr | hb
    · have hne : (k.state == .braking) = false := by cases hs : k.state <;> simp_all [ChanState.running]
      rw [hne]; exact topsOff_bottomsOn _ _ _
    · rw [hb]; exact ((gatesFit_of_braking hb).1 hfit).1

theorem keepsAll_enterTripped {s : State} {c : Chan} (k : TripCause) (h : (s.chan c).state.driving = true) :
    KeepsAll s (s.enterTripped c k) := by
  refine keepsAll_of_one ?_ fun x hx => s.chan_enterTripped_other k hx
  rw [State.chan_enterTripped_same, State.chan_endRun_same]
  refine ⟨rfl, fun ⟨hfit, _, _⟩ => ⟨(gatesFit_of_tripped rfl).2 ⟨topsOff_tripGates h hfit _ _ _, ⟨rfl, rfl⟩, fun ho => ?_⟩,
    by simp, by simp⟩⟩
  rw [Option.some.inj ho]
  exact allOff_allOff _ _ _

theorem keepsAll_reachCause (s : State) (c : Chan) (k : TripCause) : KeepsAll s (s.reachCause c k) := by
  rcases s.reachCause_cases c k with ⟨hd, h⟩ | ⟨ht, h⟩ | ⟨hs, _, h⟩ | ⟨_, _, _, h⟩ <;> rw [h]
  · exact keepsAll_enterTripped k hd
  · refine KeepsAll.trans (keepsAll_modCh ⟨rfl, fun hk => ?_⟩) (sameAll_queueEvent _ _ _ _).keeps
    obtain ⟨hg, hsafe, htrip⟩ := hk
    exact ⟨hg, hsafe, by rw [Option.isSome_map]; exact htrip⟩
  · exact (keepsAll_calFailed _ (by rw [hs]; decide)).trans (sameAll_queueEvent _ _ _ _).keeps
  · exact (sameAll_queueEvent _ _ _ _).keeps

/-- A step for one channel that is repeated for all of them. -/
theorem keepsAll_foldl {α : Type} (f : State → α → State) (hf : ∀ s a, KeepsAll s (f s a)) (l : List α) (s : State) :
    KeepsAll s (l.foldl f s) := by
  induction l generalizing s with
  | nil => exact .refl _
  | cons a l ih => exact (hf s a).trans (ih _)

theorem sameAll_foldl {α : Type} (f : State → α → State) (hf : ∀ s a, SameAll s (f s a)) (l : List α) (s : State) :
    SameAll s (l.foldl f s) := by
  induction l generalizing s with
  | nil => exact .refl _
  | cons a l ih => exact (hf s a).trans (ih _)

theorem keepsAll_sendCause (s : State) (k : TripCause) (who : ChanState → Bool) : KeepsAll s (s.sendCause k who) := by
  refine keepsAll_foldl _ (fun a c => ?_) _ _
  split
  · exact keepsAll_reachCause _ _ _
  · exact .refl _

/-- Turning everything off, and OPEN in place of a safe state in force, fits every channel state (R142). -/
theorem keeps_opened (k : Channel) (now : Time) (d : Nat) :
    Keeps k { k with gates := Gates.allOff k.gates now d, safe := k.safe.map (fun _ => .openAll) } := by
  refine ⟨rfl, fun ⟨hg, hsafe, htrip⟩ => ⟨?_, by rw [Option.isSome_map]; exact hsafe, htrip⟩⟩
  have hoff := allOff_allOff k.gates now d
  unfold Channel.gatesFit at hg ⊢
  cases hs : k.state <;> simp only [hs] at hg ⊢
  case unconfigured => exact ⟨hoff, hg.2⟩
  case stopped => exact ⟨hoff, hg.2⟩
  case calibrating => exact ⟨hoff, hg.2⟩
  case braking => exact ⟨hoff.topsOff, hg.2⟩
  case tripped => exact ⟨hoff.topsOff, hg.2.1, fun _ => hoff⟩

theorem keepsAll_faultAsserted (s : State) (c : Chan) : KeepsAll s (s.faultAsserted c) := by
  refine KeepsAll.trans (keepsAll_of_one (c := c) ?_ fun x hx => ?_) (keepsAll_reachCause _ c .faultInput)
  · rw [State.chan_modCh_same, State.chan_modGates_same]; exact keeps_opened _ _ _
  · rw [State.chan_modCh_other _ _ hx]; exact State.chan_modCh_other _ _ hx

theorem keepsAll_sampleFaults (s : State) : KeepsAll s s.sampleFaults := by
  have levels : SameAll s (s.modProt fun p => { p with levels := p.pins }) := sameAll_of_ch rfl
  refine levels.keeps.trans (keepsAll_foldl (fun a c => if a.prot.pins.get c then a.faultAsserted c else a) (fun a c => ?_) _ _)
  split
  · exact keepsAll_faultAsserted _ _
  · exact .refl _

theorem sameAll_carrierRestart (s : State) : SameAll s s.carrierRestart := by
  intro c
  rw [show s.carrierRestart.chan c = (s.chan c).restart s.tb.now from PerChan.get_map _ _ _]
  exact ⟨rfl, rfl, rfl, rfl, rfl, rfl, .refl _⟩

/-! ### The close of a period -/

theorem sameAll_emitReport (s : State) (c : Chan) (w : WorkRecord) : SameAll s (s.emitReport c w) := by
  refine SameAll.trans ?_ (sameAll_modRb _ _ _)
  exact sameAll_of_ch rfl

theorem sameAll_reportStep (s : State) (c : Chan) (w : WorkRecord) : SameAll s (s.reportStep c w) := by
  unfold State.reportStep
  simp only
  split
  · exact sameAll_modRb _ _ _
  · split
    · exact sameAll_emitReport _ _ _
    · exact sameAll_modRb _ _ _

theorem keepsAll_limitStep (s : State) (c : Chan) (n : Nat) : KeepsAll s (s.limitStep c n) := by
  unfold State.limitStep
  simp only
  split
  · exact keepsAll_reachCause _ _ _
  · exact .refl _

theorem keepsAll_closePeriod (s : State) (c : Chan) : KeepsAll s (s.closePeriod c) := by
  unfold State.closePeriod
  split
  · exact .refl _
  · exact ((sameAll_modRb _ _ _).trans (sameAll_reportStep _ _ _)).keeps.trans (keepsAll_limitStep _ _ _)

/-! ### The step sequencer -/

theorem sameAll_setCompare (s : State) (c : Chan) (due : Time) (kind : CompareKind) : SameAll s (s.setCompare c due kind) :=
  sameAll_modSq _ _ _

theorem sameAll_runBegins (s : State) (c : Chan) (t : Time) : SameAll s (s.runBegins c t) := by
  unfold State.runBegins
  simp only
  split
  · exact sameAll_setCompare _ _ _ _
  · exact (sameAll_modSq _ _ _).trans (sameAll_setCompare _ _ _ _)

theorem runsOnAt_commutate {s : State} {c : Chan} (t : Time) (peak : Bool) (h : (s.chan c).state.running = true) :
    RunsOnAt c s (s.commutate c t peak) := by
  have h1 : SameAll s (s.modSched (·.noteCommutation c)) := sameAll_of_ch rfl
  unfold State.commutate
  exact (h1.runsOn h).trans (runsOnAt_modCh ⟨h, rfl, rfl, rfl⟩)

theorem keepsAll_startFailed {s : State} {c : Chan} (h : (s.chan c).state ≠ .tripped) : KeepsAll s (s.startFailed c) :=
  (keepsAll_toStopped h).trans (sameAll_queueEvent _ _ _ _).keeps

theorem runsOnAt_enterSegment {s : State} {c : Chan} (i : Nat) (t : Time) (h : (s.chan c).state.running = true) :
    RunsOnAt c s (s.enterSegment c i t) := by
  have h1 := (sameAll_modSq s c fun q => { q with seg := i, j := 0 }).runsOn h
  unfold State.enterSegment
  simp only
  split
  · exact (h1.trans (runsOnAt_modCh ⟨rfl, rfl, rfl, rfl⟩)).same (sameAll_setCompare _ _ _ _)
  · exact (h1.trans (runsOnAt_modCh ⟨rfl, rfl, rfl, rfl⟩)).same (sameAll_setCompare _ _ _ _)

theorem keepsAll_advanceRun {s : State} {c : Chan} (t : Time) (peak : Bool) (h : (s.chan c).state.running = true) :
    KeepsAll s (s.advanceRun c t peak) := by
  unfold State.advanceRun
  simp only
  generalize hs1 : s.modSq c _ = s1
  have h1 : RunsOnAt c s s1 := by rw [← hs1]; exact (sameAll_modSq _ _ _).runsOn h
  have hcomm := h1.trans (runsOnAt_commutate t peak h1.own.running)
  split
  · exact ((hcomm.same (sameAll_modSq _ _ _)).same (sameAll_setCompare _ _ _ _)).keeps h
  · split
    · split
      · exact (h1.trans (runsOnAt_enterSegment _ _ h1.own.running)).keeps h
      · exact (hcomm.trans (runsOnAt_enterSegment _ _ hcomm.own.running)).keeps h
    · exact (h1.keeps h).trans (keepsAll_startFailed (ne_tripped_of_running h1.own.running))

theorem keepsAll_lostSyncStep (s : State) (c : Chan) : KeepsAll s (s.lostSyncStep c) := by
  unfold State.lostSyncStep
  simp only
  split
  · exact keepsAll_reachCause _ _ _
  · exact .refl _

theorem keepsAll_closedCommutation {s : State} {c : Chan} (t : Time) (peak : Bool) (kind : CompareKind)
    (h : (s.chan c).state.running = true) : KeepsAll s (s.closedCommutation c t peak kind) := by
  have h1 := ((runsOnAt_commutate t peak h).same
    (sameAll_setCompare _ c (addTicks t ((s.chan c).sq.t60 * (s.chan c).sq.p)) .blind)).keeps h
  unfold State.closedCommutation
  simp only
  split
  · exact (h1.trans ((sameAll_modSq _ _ _).trans (sameAll_queueEvent _ _ _ _)).keeps).trans (keepsAll_lostSyncStep _ _)
  · exact h1

theorem keepsAll_applyCompare (s : State) (c : Chan) (t : Time) (peak : Bool) : KeepsAll s (s.applyCompare c t peak) := by
  unfold State.applyCompare
  simp only
  split
  · exact .refl _
  · split
    · split
      next hk => exact keepsAll_advanceRun t peak (by rw [hk]; rfl)
      next hk => exact keepsAll_advanceRun t peak (by rw [hk]; rfl)
      next hk => exact keepsAll_closedCommutation t peak _ (by rw [hk]; rfl)
      next => exact .refl _
    · exact .refl _

theorem runsOnAt_handOver {s : State} {c : Chan} (tzc : Time) (delta : Nat) (h : (s.chan c).state.running = true) :
    RunsOnAt c s (s.handOver c tzc delta) := by
  unfold State.handOver
  split
  · exact (sameAll_modSq _ _ _).runsOn h
  · exact ((runsOnAt_modCh ⟨rfl, rfl, rfl, rfl⟩).same (sameAll_modSq _ _ _)).same
      ((sameAll_setCompare _ _ _ _).trans (sameAll_queueEvent _ _ _ _))

theorem keepsAll_rampCrossing {s : State} {c : Chan} (tzc : Time) (early : Bool) (h : (s.chan c).state.running = true) :
    KeepsAll s (s.rampCrossing c tzc early) := by
  have h1 : RunsOnAt c s (s.crossingFound c tzc) := (sameAll_modSq _ _ _).runsOn h
  unfold State.rampCrossing
  simp only
  split
  · split
    · have h2 := h1.same (sameAll_modSq _ c fun q => { q with qualified := min 15 ((s.chan c).sq.qualified + 1) })
      exact (h2.trans (runsOnAt_handOver _ _ h2.own.running)).keeps h
    · exact (h1.same (sameAll_modSq _ _ _)).keeps h
  · exact (h1.same (sameAll_modSq _ _ _)).keeps h

theorem sameAll_closedCrossing (s : State) (c : Chan) (tzc : Time) : SameAll s (s.closedCrossing c tzc) :=
  ((sameAll_modSq _ _ _).trans (sameAll_modSq _ _ _)).trans (sameAll_setCompare _ _ _ _)

theorem keepsAll_senseResult (s : State) (c : Chan) (seq : Seq) (raw : Nat) (start : Time) (input floatInput : Nat) :
    KeepsAll s (s.senseResult c seq raw start input floatInput) := by
  have classify : ∀ d, KeepsAll s (s.classify c start d) := by
    intro d
    unfold State.classify
    simp only
    split
    · split
      next hr => exact keepsAll_rampCrossing _ _ (by rw [hr]; rfl)
      next => exact (sameAll_closedCrossing _ _ _).keeps
    · exact (sameAll_modSq _ _ _).keeps
  unfold State.senseResult
  simp only
  split
  · split
    · exact .refl _
    · split
      · exact (sameAll_modSq _ _ _).keeps
      · exact classify _
  · exact .refl _

/-! ### The monitor and supervision -/

theorem keepsAll_auxResult (s : State) (a : AuxSource) (raw merged : Nat) : KeepsAll s (s.auxResult a raw merged) := by
  have prot : ∀ (u : State) f, KeepsAll u (u.modProt f) := fun u f => (sameAll_of_ch rfl).keeps
  have bus : ∀ u : State, KeepsAll u (u.examineBus raw) := by
    intro u
    unfold State.examineBus
    simp only
    split
    · exact prot _ _
    · exact (prot _ _).trans (keepsAll_sendCause _ _ _)
    · exact (prot _ _).trans (keepsAll_sendCause _ _ _)
  have temp : ∀ u : State, KeepsAll u (u.examineTemp raw) := by
    intro u
    have warned : ∀ b : Prop, ∀ [Decidable b] (v : State), KeepsAll v (if b then v.queueEvent .tempWarn none raw else v) := by
      intro b _ v
      split
      · exact (sameAll_queueEvent _ _ _ _).keeps
      · exact .refl _
    unfold State.examineTemp
    simp only
    split
    · exact ((prot _ _).trans (warned _ _)).trans (keepsAll_sendCause _ _ _)
    · exact (prot _ _).trans (warned _ _)
  cases a with
  | bus => exact (prot _ _).trans (bus _)
  | temp => exact (prot _ _).trans (temp _)
  | spare1 => exact prot _ _
  | spare2 => exact prot _ _

theorem sameAll_busStaleStep (s : State) : SameAll s s.busStaleStep := by
  unfold State.busStaleStep
  split <;> exact sameAll_of_ch rfl

theorem sameAll_masterWork (s : State) : SameAll s s.masterWork := by
  have staleCount : ∀ u : State, SameAll u u.staleCountStep := by
    intro u
    unfold State.staleCountStep
    split
    · exact SameAll.trans (b := u.modProt _) (sameAll_of_ch rfl) (sameAll_busStaleStep _)
    · exact sameAll_of_ch rfl
  refine SameAll.trans (b := ((({ s with tb := s.tb.takeMaster } : State).modSched _).modProt _)) (sameAll_of_ch rfl) (staleCount _)

theorem keepsAll_supervisionTrip (s : State) (k : SupTrip) : KeepsAll s (s.supervisionTrip k) := by
  have h1 := (sameAll_queueEvent s .supervisionTrip none k.code).keeps.trans
    (keepsAll_sendCause _ .supervision (· != .unconfigured))
  exact h1.trans (sameAll_of_ch rfl).keeps

theorem keepsAll_expiryStep (s : State) : KeepsAll s s.expiryStep := by
  unfold State.expiryStep
  split
  · split
    · exact (sameAll_of_ch rfl).keeps
    · exact keepsAll_supervisionTrip _ _
  · exact .refl _

theorem keepsAll_heartbeatStep (s : State) : KeepsAll s s.heartbeatStep := by
  unfold State.heartbeatStep
  split
  · exact .refl _
  · simp only
    split
    · exact KeepsAll.trans (b := s.modSup _) (sameAll_of_ch rfl).keeps (keepsAll_supervisionTrip _ _)
    · split
      · split <;> exact (sameAll_of_ch rfl).keeps
      · exact (sameAll_of_ch rfl).keeps

theorem keepsAll_slowStep (s : State) : KeepsAll s s.slowStep :=
  KeepsAll.trans (b := s.modSup _) (sameAll_of_ch rfl).keeps ((keepsAll_heartbeatStep _).trans (keepsAll_expiryStep _))

/-! ### Plans and period starts -/

theorem sameAll_insertRequest (s : State) (c : Chan) (t : Time) (seq : Seq) (r : PlanRequest) :
    SameAll s (s.insertRequest c t seq r) := by
  unfold State.insertRequest
  simp only
  split
  · exact .refl _
  · refine SameAll.trans ?_ (sameAll_modCh fun _ => ⟨rfl, rfl, rfl, rfl, rfl, rfl, .refl _⟩)
    exact sameAll_of_ch rfl

theorem sameAll_insertRequests (s : State) (c : Chan) (t : Time) (p : Plan) : SameAll s (s.insertRequests c t p) :=
  sameAll_foldl (fun a r => a.insertRequest c t p.seq r) (fun _ _ => sameAll_insertRequest _ _ _ _ _) _ _

/-- What a plan n that becomes current does to its channel, before the requests and the run (R32). -/
def planMoved (s : State) (c : Chan) (t : Time) (n : Plan) (k : Channel) : Channel :=
  { k with
    curPlan := some (n.withIndex (s.chan c).sq.index)
    nextPlan := none
    gates := Gates.becomeCurrent k.gates (s.chan c).curPlan (n.withIndex (s.chan c).sq.index) s.tb.h s.tb.d s.tb.now
    rb := { k.rb with work := newWork (n.withIndex (s.chan c).sq.index) t } }

/-- All that the handover of a plan can do to the channels. -/
theorem planCurrent_cases (s : State) (c : Chan) (t : Time) :
    SameAll (s.modCh c fun k => { k with curPlan := none }) (s.planCurrent c t) ∨
      ∃ n, (s.chan c).nextPlan = some n ∧ SameAll (s.modCh c (planMoved s c t n)) (s.planCurrent c t) := by
  unfold State.planCurrent
  simp only
  cases (s.chan c).nextPlan with
  | none => exact .inl (.refl _)
  | some n =>
    refine .inr ⟨n, rfl, ?_⟩
    simp only
    split
    · refine SameAll.trans ?_ (sameAll_runBegins _ _ _)
      exact sameAll_insertRequests _ _ _ _
    · exact sameAll_insertRequests _ _ _ _

/-- A calibration plan switches nothing, neither when it becomes current nor at the boundaries of the one before it (R37, R66). -/
theorem sameSwitches_becomeCurrent_cal (g : Gates) {old : Option Plan} {new : Plan} (h d : Nat) (now : Time)
    (ho : ∀ o, old = some o → o.body = .cal) (hn : new.body = .cal) :
    SameSwitches g (Gates.becomeCurrent g old new h d now) := by
  intro x
  cases old with
  | none => simp [Gates.becomeCurrent, PhaseGate.firstPlan, hn]
  | some o =>
    simp [Gates.becomeCurrent, PhaseGate.followPlan, PhaseGate.closeEdges, PhaseGate.meetEdge, Plan.topInterval, hn, ho o rfl]

theorem withIndex_cal {p : Plan} (i : Nat) (h : p.body = .cal) : p.withIndex i = p := by
  unfold Plan.withIndex
  rw [h]

theorem planCurrent_state (s : State) (c : Chan) (t : Time) : ((s.planCurrent c t).chan c).state = (s.chan c).state := by
  rcases planCurrent_cases s c t with h | ⟨n, _, h⟩ <;> rw [(h c).state, State.chan_modCh_same]
  rfl

theorem runsOnAt_planCurrent {s : State} {c : Chan} (t : Time) (h : (s.chan c).state.running = true) :
    RunsOnAt c s (s.planCurrent c t) := by
  rcases planCurrent_cases s c t with hp | ⟨n, _, hp⟩ <;>
    exact RunsOnAt.same (runsOnAt_modCh ⟨h, rfl, rfl, rfl⟩) hp

theorem keepsAll_planCurrent_calibrating {s : State} {c : Chan} (t : Time) (h : (s.chan c).state = .calibrating) :
    KeepsAll s (s.planCurrent c t) := by
  have hne : (s.chan c).state ≠ .tripped := by rw [h]; decide
  rcases planCurrent_cases s c t with hp | ⟨n, hn, hp⟩ <;>
    refine KeepsAll.trans (keepsAll_modCh (.of_untripped hne hne rfl rfl rfl fun hg => ?_)) hp.keeps <;>
    obtain ⟨off, hcur, hnext⟩ := (gatesFit_of_calibrating h).1 hg
  · exact (gatesFit_of_calibrating (k := { s.chan c with curPlan := none }) h).2 ⟨off, by simp, hnext⟩
  · have hcal := hnext n hn
    have hsame := withIndex_cal (s.chan c).sq.index hcal
    refine (gatesFit_of_calibrating (k := planMoved s c t n (s.chan c)) h).2 ⟨?_, ?_, by simp [planMoved]⟩
    · simp only [planMoved, hsame]
      exact (sameSwitches_becomeCurrent_cal _ _ _ _ hcur hcal).allOff off
    · simp [planMoved, hsame, hcal]

/-- The plan handover and the next plan of a channel that computes plans (R23, R32). -/
theorem keepsAll_planTurn {s : State} {c : Chan} (t : Time) (m : Seq)
    (h : (s.chan c).state.running = true ∨ (s.chan c).state = .calibrating) :
    KeepsAll s ((s.planCurrent c t).computePlan c m) := by
  unfold State.computePlan
  simp only
  rcases h with hr | hc
  · have h1 := runsOnAt_planCurrent t hr
    exact (h1.trans (runsOnAt_modCh ⟨h1.own.running, rfl, rfl, rfl⟩)).keeps hr
  · have h1 := keepsAll_planCurrent_calibrating t hc
    have hs := (planCurrent_state s c t).trans hc
    have hne : ((s.planCurrent c t).chan c).state ≠ .tripped := by rw [hs]; decide
    refine h1.trans (keepsAll_modCh (.of_untripped hne hne rfl rfl rfl fun hg => ?_))
    obtain ⟨off, hcur, _⟩ := (gatesFit_of_calibrating hs).1 hg
    unfold Channel.gatesFit
    simp only [State.planFor, hs]
    exact ⟨off, hcur, by simp [makeCalPlan]⟩

theorem sameAll_staleWarn (s : State) (c : Chan) : SameAll s (s.staleWarn c) := by
  unfold State.staleWarn
  simp only
  split
  · refine SameAll.trans ?_ (sameAll_queueEvent _ _ _ _)
    exact sameAll_modCh fun _ => ⟨rfl, rfl, rfl, rfl, rfl, rfl, .refl _⟩
  · exact .refl _

theorem keepsAll_staleTripStep (s : State) (c : Chan) : KeepsAll s (s.staleTripStep c) := by
  unfold State.staleTripStep
  simp only
  split
  · exact keepsAll_reachCause _ _ _
  · exact .refl _

theorem keepsAll_calTimeoutStep (s : State) (c : Chan) : KeepsAll s (s.calTimeoutStep c) := by
  unfold State.calTimeoutStep
  simp only
  split
  next h => exact keepsAll_calFailed _ (by rw [h.1]; decide)
  next => exact .refl _

theorem same_vectorStep (k : Channel) : Same k k.vectorStep := by
  unfold Channel.vectorStep
  split <;> exact ⟨rfl, rfl, rfl, rfl, rfl, rfl, .refl _⟩

theorem same_stepSetpoint (k : Channel) : Same k k.stepSetpoint := by
  unfold Channel.stepSetpoint
  split <;> exact ⟨rfl, rfl, rfl, rfl, rfl, rfl, .refl _⟩

theorem same_liveInForce (k : Channel) : Same k k.liveInForce := by
  unfold Channel.liveInForce
  split <;> exact ⟨rfl, rfl, rfl, rfl, rfl, rfl, .refl _⟩

theorem keepsAll_vectorPeriod (s : State) (c : Chan) (t : Time) (m : Seq) : KeepsAll s (s.vectorPeriod c t m) := by
  unfold State.vectorPeriod
  simp only
  have hclose := keepsAll_closePeriod s c
  split
  · have h2 := hclose.trans (((sameAll_modCh (c := c) same_vectorStep).trans (sameAll_staleWarn _ c)).keeps.trans
      (keepsAll_staleTripStep _ c))
    split
    next hv => exact h2.trans (keepsAll_planTurn t m (.inl (by rw [hv]; rfl)))
    next => exact h2
  · exact hclose

theorem keepsAll_stepPeriod (s : State) (c : Chan) (t : Time) (m : Seq) : KeepsAll s (s.stepPeriod c t m) := by
  unfold State.stepPeriod
  simp only
  have hclose := keepsAll_closePeriod s c
  split
  next hr =>
    split
    · have h2 := sameAll_modCh (s := s.closePeriod c) (c := c) same_stepSetpoint
      exact hclose.trans (h2.keeps.trans (keepsAll_planTurn t m (.inl (by rw [(h2 c).state]; exact hr))))
    · exact hclose.trans (keepsAll_planTurn t m (.inl hr))
  next => exact hclose

theorem keepsAll_calPeriod (s : State) (c : Chan) (t : Time) (m : Seq) : KeepsAll s (s.calPeriod c t m) := by
  unfold State.calPeriod
  simp only
  have h1 : KeepsAll s ((s.modCh c fun k => { k with calPeriods := min 256 (k.calPeriods + 1) }).calTimeoutStep c) := by
    refine KeepsAll.trans (SameAll.keeps ?_) (keepsAll_calTimeoutStep _ _)
    exact sameAll_modCh fun _ => ⟨rfl, rfl, rfl, rfl, rfl, rfl, .refl _⟩
  split
  next hc => exact h1.trans (keepsAll_planTurn t m (.inr hc))
  next => exact h1

theorem keepsAll_periodWork (s : State) (c : Chan) (t : Time) (m : Seq) : KeepsAll s (s.periodWork c t m) := by
  unfold State.periodWork
  simp only
  have hbegin : SameAll s ((s.modCh c fun k => k.beginPeriod t m s.tb.h).modCh c Channel.liveInForce) := by
    refine SameAll.trans ?_ (sameAll_modCh same_liveInForce)
    exact sameAll_modCh fun _ => ⟨rfl, rfl, rfl, rfl, rfl, rfl, .refl _⟩
  split
  case h_1 => exact hbegin.keeps.trans (keepsAll_vectorPeriod _ _ _ _)
  case h_2 => exact hbegin.keeps.trans (keepsAll_stepPeriod _ _ _ _)
  case h_3 => exact hbegin.keeps.trans (keepsAll_stepPeriod _ _ _ _)
  case h_4 => exact hbegin.keeps.trans (keepsAll_stepPeriod _ _ _ _)
  case h_5 => exact hbegin.keeps.trans (keepsAll_calPeriod _ _ _ _)
  all_goals exact hbegin.keeps

/-! ### Gate events -/

theorem keeps_meetEdge {k : Channel} {p : Plan} (x : Phase) (h d : Nat) (now : Time) (hp : k.curPlan = some p) :
    Keeps k { k with gates := k.gates.set x ((k.gates.get x).meetEdge p k.nextPlan x h d now) } := by
  refine ⟨rfl, fun ⟨hg, hsafe, htrip⟩ => ⟨?_, hsafe, htrip⟩⟩
  have hself : p.body = .cal → k.gates.set x ((k.gates.get x).meetEdge p k.nextPlan x h d now) = k.gates := by
    intro hc
    have hmeet : (k.gates.get x).meetEdge p k.nextPlan x h d now = k.gates.get x := by
      simp [PhaseGate.meetEdge, Plan.topInterval, hc]
    rw [hmeet]
    cases x <;> rfl
  unfold Channel.gatesFit at hg ⊢
  simp only [hp] at hg ⊢
  cases hs : k.state <;> simp only [hs] at hg ⊢
  case unconfigured => exact absurd hg.2.1 (by simp)
  case stopped => exact absurd hg.2.1 (by simp)
  case calibrating => rw [hself (hg.2.1 p rfl)]; exact hg
  case braking => exact absurd hg.2.1 (by simp)
  case tripped => exact absurd hg.2.1.1 (by simp)

theorem topsOff_turnOn_bottom {g : Gates} (x : Phase) (now : Time) (h : TopsOff g) :
    TopsOff (g.set x ((g.get x).turnOn .bottom now)) := by
  intro y
  rw [PerPhase.get_set]
  split
  next hy =>
    subst hy
    unfold PhaseGate.turnOn
    simp only
    split
    · exact h y
    · split <;> exact h y
  next => exact h y

/-- A turn-on that is pending: in a state with the tops off it is a bottom's, and in one with all off there is none. -/
theorem keeps_turnOn {k : Channel} {u : Time} (x : Phase) (side : Side) (now : Time) (hp : (k.gates.get x).pend side = some u) :
    Keeps k { k with gates := k.gates.set x ((k.gates.get x).turnOn side now) } := by
  have notOff : ¬AllOff k.gates := by
    intro h
    obtain ⟨_, _, htp, hbp⟩ := h x
    cases side <;> simp [PhaseGate.pend, htp, hbp] at hp
  have tops : TopsOff k.gates → TopsOff (k.gates.set x ((k.gates.get x).turnOn side now)) := by
    intro h
    cases side with
    | top => simp [PhaseGate.pend, (h x).2] at hp
    | bottom => exact topsOff_turnOn_bottom x now h
  refine ⟨rfl, fun ⟨hg, hsafe, htrip⟩ => ⟨?_, hsafe, htrip⟩⟩
  unfold Channel.gatesFit at hg ⊢
  cases hs : k.state <;> simp only [hs] at hg ⊢
  case unconfigured => exact absurd hg.1 notOff
  case stopped => exact absurd hg.1 notOff
  case calibrating => exact absurd hg.1 notOff
  case braking => exact ⟨tops hg.1, hg.2⟩
  case tripped => exact ⟨tops hg.1, hg.2.1, fun ho => absurd (hg.2.2 ho) notOff⟩

/-! ### Conversions -/

/-- From s to t the calibration of a channel ends with a new zero offset (R38): but for that offset the channels are kept. -/
structure CalEnds (c : Chan) (s t : State) : Prop where
  before : (s.chan c).state = .calibrating
  after : (t.chan c).state = .stopped
  low : 1648 ≤ (t.chan c).z
  high : (t.chan c).z ≤ 2448
  own : Keeps (s.chan c) { t.chan c with z := (s.chan c).z }
  others : ∀ x, x ≠ c → Keeps (s.chan x) (t.chan x)

theorem CalEnds.channelsFit {c : Chan} {s t : State} (h : CalEnds c s t) (hs : s.channelsFit) : t.channelsFit := by
  intro x
  by_cases hx : x = c
  · subst hx
    exact h.own.fits (hs x)
  · exact (h.others x hx).fits (hs x)

theorem CalEnds.of_same {c : Chan} {s s' t : State} (h : SameAll s s') (h' : CalEnds c s' t) : CalEnds c s t where
  before := (h c).state.symm.trans h'.before
  after := h'.after
  low := h'.low
  high := h'.high
  own := by rw [← (h c).z]; exact (h c).keeps.trans h'.own
  others := fun x hx => (h x).keeps.trans (h'.others x hx)

theorem CalEnds.same {c : Chan} {s t t' : State} (h : CalEnds c s t) (h' : SameAll t t') : CalEnds c s t' where
  before := h.before
  after := (h' c).state.trans h.after
  low := by rw [(h' c).z]; exact h.low
  high := by rw [(h' c).z]; exact h.high
  own :=
    have hc := h' c
    h.own.trans (Same.keeps ⟨hc.state, hc.safe, hc.trip, rfl, hc.curPlan, hc.nextPlan, hc.gates⟩)
  others := fun x hx => (h.others x hx).trans (h' x).keeps

/-- The examination of the calibration result count writes the zero offset, or no channel's. -/
theorem calDoneStep_cases (s : State) (c : Chan) :
    KeepsAll s (s.calDoneStep c) ∨ (CalEnds c s (s.calDoneStep c) ∧ 64 ≤ (s.chan c).calResults) := by
  unfold State.calDoneStep
  simp only
  split
  next h =>
    have hne : (s.chan c).state ≠ .tripped := by rw [h.1]; decide
    split
    next hz =>
      refine .inr ⟨CalEnds.same ?_ (sameAll_queueEvent _ _ _ _), h.2⟩
      have hz' : ((s.toStopped c).chan c).z = (s.chan c).z := (keepsAll_toStopped hne c).z
      have hst : ((s.toStopped c).chan c).state = .stopped := by rw [State.chan_toStopped_same]
      constructor
      · exact h.1
      · rw [State.chan_modCh_same]; exact hst
      · rw [State.chan_modCh_same]; exact hz.1
      · rw [State.chan_modCh_same]; exact hz.2
      · rw [State.chan_modCh_same, ← hz']
        exact keepsAll_toStopped hne c
      · intro x hx
        rw [State.chan_modCh_other _ _ hx]
        exact keepsAll_toStopped hne x
    next => exact .inl (keepsAll_calFailed _ hne)
  next => exact .inl (.refl _)

theorem calResult_cases (s : State) (c : Chan) (seq : Seq) (raw : Nat) :
    KeepsAll s (s.calResult c seq raw) ∨ (CalEnds c s (s.calResult c seq raw) ∧ 64 ≤ (s.chan c).calResults + 1) := by
  unfold State.calResult
  simp only
  split
  · have h1 : SameAll s (s.modCh c fun x => { x with calSum := x.calSum + raw, calResults := x.calResults + 1 }) :=
      sameAll_modCh fun _ => ⟨rfl, rfl, rfl, rfl, rfl, rfl, .refl _⟩
    rcases calDoneStep_cases (s.modCh c fun x => { x with calSum := x.calSum + raw, calResults := x.calResults + 1 }) c with
      h | ⟨h, hn⟩
    · exact .inl (h1.keeps.trans h)
    · rw [State.chan_modCh_same] at hn
      exact .inr ⟨h.of_same h1, hn⟩
  · exact .inl (.refl _)

theorem keepsAll_channelResult {s : State} {c : Chan} {v : Conversion} (raw : Nat) (h : v.entry.purpose ≠ .cal) :
    KeepsAll s (s.channelResult c v raw) := by
  have shunt : KeepsAll s (s.shuntResult c v raw (ticksSince v.start v.entry.due)) := (sameAll_modRb _ _ _).keeps
  unfold State.channelResult
  simp only
  split
  next hc => exact absurd hc h
  next => exact (sameAll_modRb _ _ _).keeps.trans (keepsAll_senseResult _ _ _ _ _ _ _)
  next => exact shunt

/-- A completion writes a zero offset as the 64th result of a calibration, or none. -/
theorem completeConversion_cases (s : State) (v : Conversion) (raw : Nat) :
    KeepsAll s (s.completeConversion v raw) ∨
      ∃ c, v.entry.owner = .chan c ∧ v.entry.purpose = .cal ∧ CalEnds c s (s.completeConversion v raw) ∧
        64 ≤ (s.chan c).calResults + 1 := by
  unfold State.completeConversion
  simp only
  have hidle : SameAll s (s.modSched fun q => { q with conv := none }) := sameAll_of_ch rfl
  split
  next _ _ c hc =>
    have hcount := hidle.trans (sameAll_modCh (c := c) (f := fun k => { k with converted := k.converted + 1 })
      fun _ => ⟨rfl, rfl, rfl, rfl, rfl, rfl, .refl _⟩)
    by_cases hcal : v.entry.purpose = .cal
    · unfold State.channelResult
      simp only [hcal]
      rcases calResult_cases ((s.modSched fun q => { q with conv := none }).modCh c fun k =>
          { k with converted := k.converted + 1 }) c v.entry.seq raw with h | ⟨h, hn⟩
      · exact .inl (hcount.keeps.trans h)
      · rw [State.chan_modCh_same] at hn
        exact .inr ⟨c, hc, trivial, h.of_same hcount, hn⟩
    · exact .inl (hcount.keeps.trans (keepsAll_channelResult raw hcal))
  next => exact .inl (hidle.keeps.trans (keepsAll_auxResult _ _ _ _))
  next => exact .inl hidle.keeps

/-! ### Requests -/

/-- The link's part of a request keeps the channels; the rest is the owner's. -/
theorem keepsAll_takeRequest {α : Type} {type tag : Byte} {pl : Bool} {fields : Option α} {owner : α → State → State × Answer}
    {s t : State} (ho : ∀ a, KeepsAll s (owner a s).1) (h : takeRequest type tag pl fields owner s = .next t) : KeepsAll s t := by
  have replied : ∀ (u : State) (a : Answer), SameAll u (u.replied type tag a) := fun u a => by
    refine SameAll.trans ?_ (sameAll_settle _)
    exact sameAll_of_ch rfl
  rcases takeRequest_cases type tag pl fields owner s with ⟨_, h'⟩ | ⟨_, _, h'⟩ | ⟨a, _, _, _, _, h'⟩ | ⟨a, _, _, _, h'⟩ <;>
    rw [h'] at h <;> cases h
  · exact .refl _
  · exact (replied _ _).keeps
  · exact (replied _ _).keeps
  · exact (ho a).trans (replied _ _).keeps

theorem keepsAll_onChannel {n : Nat} {owner : Chan → State → State × Answer} {s : State}
    (h : ∀ c, KeepsAll s (owner c s).1) : KeepsAll s (onChannel n owner s).1 := by
  unfold onChannel
  split
  · exact .refl _
  · exact h _

theorem keepsAll_ownSetLink (f : Nat × Nat) (s : State) : KeepsAll s (ownSetLink f s).1 := by
  unfold ownSetLink
  split
  · exact .refl _
  · split <;> exact .refl _

theorem keepsAll_ownSleep (s : State) : KeepsAll s (ownSleep () s).1 := by
  unfold ownSleep
  split
  · split
    · exact .refl _
    · exact (sameAll_of_ch rfl).keeps
  · split <;> exact .refl _

theorem keepsAll_ownStatus (f : Nat × Nat) (s : State) : KeepsAll s (ownStatus f s).1 := by
  unfold ownStatus
  simp only
  split
  · split
    · exact .refl _
    · split <;> exact (sameAll_of_ch rfl).keeps
  · split
    · exact .refl _
    · split
      · exact .refl _
      · exact (sameAll_of_ch rfl).keeps

theorem keepsAll_ownRecover (s : State) : KeepsAll s (ownRecover () s).1 := by
  unfold ownRecover
  split
  · exact (sameAll_of_ch rfl).keeps
  · exact .refl _

theorem keepsAll_ownSupervise (f : Nat × Nat) (s : State) : KeepsAll s (ownSupervise f s).1 := by
  refine (sameAll_of_ch ?_).keeps
  unfold ownSupervise
  repeat' split
  all_goals rfl

theorem keepsAll_ownHeartbeat (n : Nat) (s : State) : KeepsAll s (ownHeartbeat n s).1 := by
  refine (sameAll_of_ch ?_).keeps
  unfold ownHeartbeat
  repeat' split
  all_goals rfl

theorem keepsAll_ownCarrier (f : Nat × Nat) (s : State) : KeepsAll s (ownCarrier f s).1 := by
  have restarted : ∀ u : State, KeepsAll u u.flushAll.carrierRestart := fun u =>
    ((sameAll_flushAll u).trans (sameAll_carrierRestart _)).keeps
  unfold ownCarrier
  split
  · exact .refl _
  · split
    · exact .refl _
    · split
      · exact .refl _
      · split
        · exact .refl _
        · refine KeepsAll.trans ?_ (restarted _)
          exact (sameAll_of_ch rfl).keeps

theorem keepsAll_ownConverter (f : Levels) (s : State) : KeepsAll s (ownConverter f s).1 := by
  refine (sameAll_of_ch ?_).keeps
  unfold ownConverter
  repeat' split
  all_goals rfl

theorem keepsAll_ownAuxPlan (f : Nat × List AuxFields) (s : State) : KeepsAll s (ownAuxPlan f s).1 := by
  refine (sameAll_of_ch ?_).keeps
  unfold ownAuxPlan
  repeat' split
  all_goals rfl

theorem keepsAll_ownLimits (f : LimitFields) (s : State) : KeepsAll s (ownLimits f s).1 := by
  refine (sameAll_of_ch ?_).keeps
  unfold ownLimits
  repeat' split
  all_goals rfl

theorem keepsAll_ownSetup (f : Nat × List (Nat × Nat)) (s : State) : KeepsAll s (ownSetup f s).1 := by
  refine keepsAll_onChannel fun c => ?_
  split
  · exact .refl _
  · refine SameAll.keeps (sameAll_modCh fun _ => ?_)
    exact ⟨rfl, rfl, rfl, rfl, rfl, rfl, .refl _⟩

/-- An idle channel that goes on idle, with gates and plans as they were. -/
theorem keeps_idle {k k' : Channel} (h : k.state.idle = true) (h' : k'.state.idle = true) (hsafe : k'.safe = k.safe)
    (htrip : k'.trip = k.trip) (hz : k'.z = k.z) (hg : k'.gates = k.gates) (hc : k'.curPlan = k.curPlan)
    (hn : k'.nextPlan = k.nextPlan) : Keeps k k' := by
  refine .of_untripped ?_ ?_ hsafe htrip hz fun hfit => ?_
  · intro ht; rw [ht] at h; cases h
  · intro ht; rw [ht] at h'; cases h'
  · rw [gatesFit_of_idle h', hg, hc, hn]; exact (gatesFit_of_idle h).1 hfit

theorem keepsAll_activateIdle {s : State} {c : Chan} (h : (s.chan c).state.idle = true) : KeepsAll s (s.activateIdle c) := by
  have h1 : ∀ slot, KeepsAll s (s.modCh c fun x => { x with active := x.staged, live := none, slot := slot, state := .stopped }) :=
    fun _ => keepsAll_modCh (keeps_idle h rfl rfl rfl rfl rfl rfl rfl)
  unfold State.activateIdle
  simp only
  split
  · refine (h1 _).trans (SameAll.keeps (sameAll_modCh fun _ => ?_))
    exact ⟨rfl, rfl, rfl, rfl, rfl, rfl, .refl _⟩
  · exact h1 _

theorem keepsAll_ownActivate (n : Nat) (s : State) : KeepsAll s (ownActivate n s).1 := by
  refine keepsAll_onChannel fun c => ?_
  simp only
  split
  · exact .refl _
  next hne =>
    split
    · exact .refl _
    · split
      · split
        · refine SameAll.keeps (sameAll_modCh fun _ => ?_)
          exact ⟨rfl, rfl, rfl, rfl, rfl, rfl, .refl _⟩
        · exact .refl _
      next hd =>
        refine keepsAll_activateIdle ?_
        cases hs : (s.chan c).state <;> simp [hs, ChanState.driving, ChanState.running] at hne hd <;> rfl

theorem keepsAll_ownProfile (f : Nat × Nat × List SegmentFields) (s : State) : KeepsAll s (ownProfile f s).1 := by
  refine keepsAll_onChannel fun c => ?_
  simp only
  split
  · exact .refl _
  · split
    · exact .refl _
    · split
      · exact .refl _
      · exact (sameAll_modSq _ _ _).keeps

theorem keepsAll_ownCalibrate (n : Nat) (s : State) : KeepsAll s (ownCalibrate n s).1 := by
  refine keepsAll_onChannel fun c => ?_
  split
  · exact .refl _
  next hs =>
    have hs : (s.chan c).state = .stopped := not_not.1 hs
    split
    · exact .refl _
    · refine keepsAll_modCh (.of_untripped (by rw [hs]; decide) (by simp) rfl rfl rfl fun hg => ?_)
      obtain ⟨off, hcur, hnext⟩ := (gatesFit_of_stopped hs).1 hg
      exact (gatesFit_of_calibrating rfl).2 ⟨off, by simp [hcur], by simp [hnext]⟩

/-- A stopped channel may begin a run: a running state asks nothing of gates and plans. -/
theorem keeps_started {k k' : Channel} (h : k.state = .stopped) (h' : k'.state.running = true) (hsafe : k'.safe = k.safe)
    (htrip : k'.trip = k.trip) (hz : k'.z = k.z) : Keeps k k' :=
  .of_untripped (by rw [h]; decide) (ne_tripped_of_running h') hsafe htrip hz fun _ => gatesFit_of_running h'

theorem startStep_running (k : Channel) (f : StepFields) (kind : SegKind) : (k.startStep f kind).state.running = true := by
  cases kind <;> rfl

theorem keepsAll_ownStart (f : Nat × Option StepFields) (s : State) : KeepsAll s (ownStart f s).1 := by
  refine keepsAll_onChannel fun c => ?_
  simp only
  split
  · exact .refl _
  next hs =>
    have hs : (s.chan c).state = .stopped := not_not.1 hs
    split
    · exact .refl _
    · exact .refl _
    · split
      · exact .refl _
      · split
        · exact .refl _
        · exact keepsAll_modCh (keeps_started hs rfl rfl rfl rfl)
    · split
      · exact .refl _
      · split
        · exact .refl _
        · exact keepsAll_modCh (keeps_started hs (startStep_running _ _ _) rfl rfl rfl)

theorem keepsAll_stopCoast (s : State) (c : Chan) : KeepsAll s (s.stopCoast c).1 := by
  unfold State.stopCoast
  split
  next => exact .refl _
  next h => exact keepsAll_calFailed _ (by rw [h]; decide)
  next => exact .refl _
  next => exact .refl _
  all_goals
    next h => exact keepsAll_toStopped (by rw [h]; decide)

theorem chan_toBraking_same (s : State) (c : Chan) :
    (s.toBraking c).chan c =
      { (s.endRun c).chan c with
        state := .braking
        gates := Gates.bottomsOn ((s.endRun c).chan c).gates s.tb.now s.tb.d } := by
  unfold State.toBraking
  rw [State.chan_modCh_same, State.chan_modGates_same]

theorem chan_toBraking_other (s : State) {c x : Chan} (h : x ≠ c) : (s.toBraking c).chan x = s.chan x := by
  unfold State.toBraking State.modGates
  rw [State.chan_modCh_other _ _ h, State.chan_modCh_other _ _ h, State.chan_endRun_other _ h]

theorem keepsAll_toBraking {s : State} {c : Chan} (h : (s.chan c).state ≠ .tripped) : KeepsAll s (s.toBraking c) := by
  refine keepsAll_of_one ?_ fun x hx => chan_toBraking_other s hx
  rw [chan_toBraking_same, State.chan_endRun_same]
  exact .of_untripped h (by simp) rfl rfl rfl fun _ => (gatesFit_of_braking rfl).2 ⟨topsOff_bottomsOn _ _ _, rfl, rfl⟩

theorem keepsAll_stopBrake (s : State) (c : Chan) : KeepsAll s (s.stopBrake c).1 := by
  unfold State.stopBrake
  split
  next => exact .refl _
  next => exact .refl _
  next h => exact keepsAll_calFailed _ (by rw [h]; decide)
  next => exact .refl _
  next => exact .refl _
  all_goals
    next h => exact keepsAll_toBraking (by rw [h]; decide)

theorem keepsAll_ownStop (f : Nat × Nat) (s : State) : KeepsAll s (ownStop f s).1 := by
  refine keepsAll_onChannel fun c => ?_
  split
  · exact keepsAll_stopCoast _ _
  · exact keepsAll_stopBrake _ _
  · exact .refl _

theorem keepsAll_store (s : State) (c : Chan) (x : Setpoint) : KeepsAll s (s.modCh c (·.store x)) := by
  refine SameAll.keeps (sameAll_modCh fun _ => ?_)
  exact ⟨rfl, rfl, rfl, rfl, rfl, rfl, .refl _⟩

theorem keepsAll_ownVectorSet (f : VectorFields) (s : State) : KeepsAll s (ownVectorSet f s).1 := by
  refine keepsAll_onChannel fun c => ?_
  simp only
  split
  · exact .refl _
  · split
    · exact .refl _
    · exact keepsAll_store _ _ _

theorem keepsAll_ownStepSet (f : StepSetFields) (s : State) : KeepsAll s (ownStepSet f s).1 := by
  refine keepsAll_onChannel fun c => ?_
  simp only
  split
  · exact .refl _
  · split
    · exact .refl _
    · exact keepsAll_store _ _ _

/-- An update of a channel's gates and one of the channel are one update. -/
theorem modGates_modCh (s : State) (c : Chan) (f : Gates → Gates) (g : Channel → Channel) :
    (s.modGates c f).modCh c g = s.modCh c fun k => g { k with gates := f k.gates } := by
  cases c <;> rfl

theorem keepsAll_ownClearTrip (n : Nat) (s : State) : KeepsAll s (ownClearTrip n s).1 := by
  refine keepsAll_onChannel fun c => ?_
  split
  · exact .refl _
  next hs =>
    have hs : (s.chan c).state = .tripped := not_not.1 hs
    split
    · exact .refl _
    · rw [modGates_modCh]
      refine keepsAll_modCh ⟨rfl, fun ⟨hg, _, _⟩ => ?_⟩
      obtain ⟨_, hplans, _⟩ := (gatesFit_of_tripped hs).1 hg
      exact ⟨(gatesFit_of_stopped rfl).2 ⟨allOff_allOff _ _ _, hplans⟩, by simp [Channel.cleared], by simp [Channel.cleared]⟩

/-! ### The device and the link -/

theorem keepsAll_endStartUp (s : State) : KeepsAll s s.endStartUp := by
  unfold State.endStartUp
  simp only
  refine KeepsAll.trans (SameAll.keeps ?_) (keepsAll_sampleFaults _)
  refine SameAll.trans ?_ (sameAll_queueEvent _ _ _ _)
  refine SameAll.trans ?_ (sameAll_carrierRestart _)
  exact sameAll_of_ch rfl

theorem sameAll_quietEntryNow (s : State) : SameAll s s.quietEntryNow := by
  have enter : ∀ u : State, SameAll u u.enterQuiet := by
    intro u c
    refine (sameAll_flushAll u c).trans ?_
    rw [show u.enterQuiet.chan c = (u.flushAll.chan c).stopPeriods from PerChan.get_map _ _ _]
    exact ⟨rfl, rfl, rfl, rfl, rfl, rfl, .refl _⟩
  rcases s.quietEntryNow_cases with ⟨_, _, _, h⟩ | ⟨_, h⟩ <;> rw [h]
  · refine SameAll.trans ?_ (enter _)
    exact sameAll_of_ch rfl
  · exact sameAll_of_ch rfl

theorem sameAll_enterGap (s : State) : SameAll s s.enterGap := by
  unfold State.enterGap
  split <;> exact sameAll_of_ch rfl

theorem keepsAll_wakeNow (s : State) : KeepsAll s s.wakeNow := by
  have transmit : ∀ u : State, SameAll u u.transmitAgain := by
    intro u
    unfold State.transmitAgain
    split <;> exact sameAll_of_ch rfl
  unfold State.wakeNow
  simp only
  refine KeepsAll.trans (SameAll.keeps ?_) (keepsAll_sampleFaults _)
  refine SameAll.trans ?_ (sameAll_carrierRestart _)
  refine SameAll.trans ?_ (transmit _)
  exact sameAll_of_ch rfl

theorem sameAll_receive (s : State) (cs : List Byte) (left : Nat) : SameAll s (s.receive cs left) := by
  have item : ∀ (u : State) (x : RxItem), SameAll u (u.rxItem x) := by
    intro u x
    unfold State.rxItem
    split
    · exact sameAll_of_ch rfl
    · split <;> exact sameAll_of_ch rfl
  exact (sameAll_foldl State.rxItem item (scan 0 cs).1 s).trans (sameAll_of_ch rfl)

theorem sameAll_wakeBegins (s : State) (char : Byte) : SameAll s (s.wakeBegins char) := by
  unfold State.wakeBegins
  split <;> exact sameAll_of_ch rfl

/-! ### Every command -/

/-- Every channel is in its reset state. -/
def ChannelsReset (t : State) : Prop := ∀ c, t.chan c = Channel.reset

theorem fits_reset : Fits Channel.reset := by
  refine ⟨(gatesFit_of_idle rfl).2 ⟨fun x => ?_, rfl, rfl⟩, ?_, ?_⟩
  · cases x <;> exact ⟨rfl, rfl, rfl, rfl⟩
  · simp [Channel.reset]
  · simp [Channel.reset]

theorem ChannelsReset.channelsFit {t : State} (h : ChannelsReset t) : t.channelsFit := by
  intro c
  rw [h c]
  exact fits_reset

/-- The command resets the block (R13, R14). -/
def Resets (i : Instr) (s : State) : Prop :=
  (∃ v, i = .powerOnReset v) ∨ i = .pinReset ∨
    ((i = .messageReset ∨ i = .frameSent) ∧ ∃ cs n, s.link.tx = .sending cs .messageReset n)

/-- The command can bring a channel the 64th result of its calibration (R38). -/
def BringsOffset (i : Instr) (s : State) (c : Chan) : Prop :=
  (i = .calDone c ∧ 64 ≤ (s.chan c).calResults) ∨
    ∃ raw v, i = .conversionComplete raw ∧ s.sched.conv = some v ∧ v.entry.owner = .chan c ∧ v.entry.purpose = .cal ∧
      64 ≤ (s.chan c).calResults + 1

/-- The three things a command can do to the channels: keep them, reset them all, or end one's calibration with a new offset. -/
inductive ChannelOutcome (i : Instr) (s t : State) : Prop
  | kept (h : KeepsAll s t)
  | reset (h : Resets i s) (ht : ChannelsReset t)
  | offset (c : Chan) (h : BringsOffset i s c) (ht : CalEnds c s t)

theorem keepsAll_of_done {s u t : State} (hu : KeepsAll s u) (h : done u = .next t) : KeepsAll s t := by
  cases h
  exact hu.trans (sameAll_settle _).keeps

theorem keepsAll_of_next {s t : State} (h : Host.Outcome.next (φ := Fault) (ρ := Refusal) s = .next t) : KeepsAll s t := by
  cases h
  exact .refl _

/-- A timed command: time passes until its instant, then it has its effect. -/
theorem KeepsAll.waited {s u : State} {t : Time} (h : KeepsAll (s.waitUntil t) u) : KeepsAll s u :=
  (sameAll_waitUntil s t).keeps.trans h

theorem KeepsAll.elapsed {s u : State} {n : Nat} (h : KeepsAll (s.elapse n) u) : KeepsAll s u :=
  (sameAll_elapse s n).keeps.trans h

theorem channelsReset_of_done {u t : State} (hu : u.ch = ⟨.reset, .reset, .reset⟩) (h : done u = .next t) :
    ChannelsReset t := by
  cases h
  intro c
  rw [State.chan_settle]
  unfold State.chan
  rw [hu]
  cases c <;> rfl

/-! The period events and the examinations. -/

theorem keepsAll_execMasterPeriodStart {s t : State} (h : execMasterPeriodStart s = .next t) : KeepsAll s t := by
  unfold execMasterPeriodStart at h
  split at h
  · exact keepsAll_of_done (KeepsAll.waited (sameAll_masterWork _).keeps) h
  · exact keepsAll_of_next h

theorem keepsAll_execChannelPeriodStart {c : Chan} {s t : State} (h : execChannelPeriodStart c s = .next t) : KeepsAll s t := by
  unfold execChannelPeriodStart at h
  split at h
  · exact keepsAll_of_done (keepsAll_periodWork _ _ _ _).waited h
  · exact keepsAll_of_next h

theorem keepsAll_execPeriodReport {c : Chan} {s t : State} (h : execPeriodReport c s = .next t) : KeepsAll s t := by
  unfold execPeriodReport at h
  simp only at h
  split at h
  · split at h
    · exact keepsAll_of_done (sameAll_emitReport _ _ _).keeps h
    · exact keepsAll_of_next h
  · exact keepsAll_of_next h

/-! The events of a channel. -/

theorem keepsAll_execHalfPeriodPoint {c : Chan} {s t : State} (h : execHalfPeriodPoint c s = .next t) : KeepsAll s t := by
  unfold execHalfPeriodPoint at h
  split at h
  · refine keepsAll_of_done (KeepsAll.waited (KeepsAll.trans (SameAll.keeps (sameAll_modCh fun _ => ?_))
      (keepsAll_applyCompare _ _ _ _))) h
    exact ⟨rfl, rfl, rfl, rfl, rfl, rfl, .refl _⟩
  · exact keepsAll_of_next h

theorem keepsAll_execCommutationDue {c : Chan} {s t : State} (h : execCommutationDue c s = .next t) : KeepsAll s t := by
  unfold execCommutationDue at h
  split at h
  · split at h
    · exact keepsAll_of_next h
    · exact keepsAll_of_done (KeepsAll.waited (sameAll_modSq _ _ _).keeps) h
  · exact keepsAll_of_next h

theorem ramp_of_crossingPossible {s : State} {c : Chan} {tzc : Time} (h : s.crossingPossible c tzc = true) :
    (s.chan c).state = .ramp := by
  simp only [State.crossingPossible, Bool.and_eq_true, beq_iff_eq] at h
  obtain ⟨⟨⟨⟨⟨hramp, _⟩, _⟩, _⟩, _⟩, _⟩ := h
  exact hramp

theorem keepsAll_execHandover {c : Chan} {tzc : Time} {s t : State} (h : execHandover c tzc s = .next t) : KeepsAll s t := by
  unfold execHandover at h
  simp only at h
  split at h
  next hc =>
    exact keepsAll_of_done (keepsAll_rampCrossing _ _ (by rw [ramp_of_crossingPossible hc.1]; rfl)) h
  next => exact keepsAll_of_next h

theorem keepsAll_execGateEdge {c : Chan} {x : Phase} {s t : State} (h : execGateEdge c x s = .next t) : KeepsAll s t := by
  unfold execGateEdge at h
  simp only at h
  split at h
  next p t0 _ hp _ =>
    split at h
    · exact keepsAll_of_next h
    next e _ =>
      have hw := sameAll_waitUntil s (addTicks t0 e) c
      refine keepsAll_of_done (KeepsAll.waited (keepsAll_modCh ?_)) h
      rw [← hw.nextPlan]
      exact keeps_meetEdge x _ _ _ (hw.curPlan.trans hp)
  next => exact keepsAll_of_next h

theorem keepsAll_execPendingTurnOn {c : Chan} {x : Phase} {side : Side} {s t : State}
    (h : execPendingTurnOn c x side s = .next t) : KeepsAll s t := by
  unfold execPendingTurnOn at h
  split at h
  next u _ hp =>
    refine keepsAll_of_done (KeepsAll.waited (keepsAll_modCh (keeps_turnOn x side _ (u := u) ?_))) h
    obtain ⟨_, _, htop, hbottom⟩ := (sameAll_waitUntil s u c).gates x
    cases side
    · exact htop.trans hp
    · exact hbottom.trans hp
  next => exact keepsAll_of_next h

theorem keepsAll_execFaultInputAssertion {c : Chan} {s t : State} (h : execFaultInputAssertion c s = .next t) :
    KeepsAll s t := by
  unfold execFaultInputAssertion at h
  simp only at h
  split at h
  · refine keepsAll_of_done (KeepsAll.trans (SameAll.keeps ?_) (keepsAll_faultAsserted _ _)) h
    exact sameAll_of_ch rfl
  · refine keepsAll_of_done (SameAll.keeps ?_) h
    exact sameAll_of_ch rfl

theorem keepsAll_execFaultInputRelease {c : Chan} {s t : State} (h : execFaultInputRelease c s = .next t) : KeepsAll s t := by
  unfold execFaultInputRelease at h
  simp only at h
  split at h <;>
  · refine keepsAll_of_done (SameAll.keeps ?_) h
    exact sameAll_of_ch rfl

/-! The converter's events. -/

theorem keepsAll_execConversionStart {s t : State} (h : execConversionStart s = .next t) : KeepsAll s t := by
  unfold execConversionStart at h
  split at h
  next first _ _ _ _ =>
    have hwait : KeepsAll s (if s.sched.timeline.any (·.isDue s.tb.now) then s else s.waitUntil first.due) := by
      split
      · exact .refl _
      · exact (sameAll_waitUntil _ _).keeps
    simp only at h
    split at h
    · refine keepsAll_of_done (hwait.trans (SameAll.keeps ?_)) h
      exact sameAll_of_ch rfl
    · exact keepsAll_of_next h
  next => exact keepsAll_of_next h

theorem keepsAll_execLate {slot : Nat} {s t : State} (h : execLate slot s = .next t) : KeepsAll s t := by
  have late : ∀ (u : State) c e, SameAll u (u.removeLate c e) := by
    intro u c e
    refine SameAll.trans ?_ (sameAll_modRb _ _ _)
    refine SameAll.trans ?_ (sameAll_modCh fun _ => ⟨rfl, rfl, rfl, rfl, rfl, rfl, .refl _⟩)
    exact sameAll_of_ch rfl
  unfold execLate at h
  split at h
  · split at h
    · exact keepsAll_of_done (KeepsAll.waited (late _ _ _).keeps) h
    · exact keepsAll_of_next h
  · exact keepsAll_of_next h

/-- CONVERSION_COMPLETE keeps the channels or brings the 64th result of a calibration. -/
theorem channelOutcome_conversionComplete {raw : BitVec 12} {s t : State} (h : execConversionComplete raw s = .next t) :
    ChannelOutcome (.conversionComplete raw) s t := by
  unfold execConversionComplete at h
  split at h
  next v hv =>
    rcases completeConversion_cases (s.elapse v.left) v raw.toNat with hk | ⟨c, ho, hp, hc, hn⟩
    · exact .kept (keepsAll_of_done hk.elapsed h)
    · cases h
      have hsame : ((s.elapse v.left).chan c).calResults = (s.chan c).calResults := by
        rcases s.chan_elapse v.left c with he | he <;> rw [he]
        rfl
      rw [hsame] at hn
      exact .offset c (.inr ⟨raw, v, rfl, hv, ho, hp, hn⟩) ((hc.of_same (sameAll_elapse _ _)).same (sameAll_settle _))
  next => exact .kept (keepsAll_of_next h)

theorem channelOutcome_calDone {c : Chan} {s t : State} (h : execCalDone c s = .next t) : ChannelOutcome (.calDone c) s t := by
  cases h
  rcases calDoneStep_cases s c with hk | ⟨hc, hn⟩
  · exact .kept (hk.trans (sameAll_settle _).keeps)
  · exact .offset c (.inl ⟨rfl, hn⟩) (hc.same (sameAll_settle _))

/-! The events of the device and the link. -/

theorem channelOutcome_powerOnReset {v : Bool} {s t : State} (h : execPowerOnReset v s = .next t) :
    ChannelOutcome (.powerOnReset v) s t :=
  .reset (.inl ⟨v, rfl⟩) (channelsReset_of_done rfl h)

theorem channelOutcome_pinReset {s t : State} (h : execPinReset s = .next t) : ChannelOutcome .pinReset s t :=
  .reset (.inr (.inl rfl)) (channelsReset_of_done rfl h)

theorem channelOutcome_messageReset {s t : State} (h : execMessageReset s = .next t) : ChannelOutcome .messageReset s t := by
  unfold execMessageReset at h
  split at h
  next cs n htx => exact .reset (.inr (.inr ⟨.inl rfl, cs, n, htx⟩)) (channelsReset_of_done rfl h)
  next => exact .kept (keepsAll_of_next h)

theorem sameAll_linkInForce (s : State) (r : Rate) (gap : Nat) : SameAll s (s.linkInForce r gap) := sameAll_of_ch rfl

theorem channelOutcome_frameSent {s t : State} (h : execFrameSent s = .next t) : ChannelOutcome .frameSent s t := by
  unfold execFrameSent at h
  split at h
  next cs e n htx =>
    cases e with
    | nothing => exact .kept (keepsAll_of_done (KeepsAll.elapsed (sameAll_enterGap _).keeps) h)
    | messageReset => exact .reset (.inr (.inr ⟨.inr rfl, cs, n, htx⟩)) (channelsReset_of_done rfl h)
    | quietEntry =>
      exact .kept (keepsAll_of_done (KeepsAll.elapsed ((sameAll_quietEntryNow _).trans (sameAll_enterGap _)).keeps) h)
    | setLink r gap =>
      exact .kept (keepsAll_of_done (KeepsAll.elapsed ((sameAll_linkInForce _ _ _).trans (sameAll_enterGap _)).keeps) h)
  next => exact .kept (keepsAll_of_next h)

theorem keepsAll_execSetLinkInForce {s t : State} (h : execSetLinkInForce s = .next t) : KeepsAll s t := by
  unfold execSetLinkInForce at h
  split at h
  · exact keepsAll_of_done (KeepsAll.elapsed ((sameAll_linkInForce _ _ _).trans (sameAll_enterGap _)).keeps) h
  · exact keepsAll_of_next h

theorem keepsAll_execQuietEntry {s t : State} (h : execQuietEntry s = .next t) : KeepsAll s t := by
  unfold execQuietEntry at h
  split at h
  · exact keepsAll_of_done (KeepsAll.elapsed ((sameAll_quietEntryNow _).trans (sameAll_enterGap _)).keeps) h
  · exact keepsAll_of_next h

theorem keepsAll_execGapEnd {s t : State} (h : execGapEnd s = .next t) : KeepsAll s t := by
  unfold execGapEnd at h
  split at h
  next left _ =>
    refine keepsAll_of_done (KeepsAll.elapsed (n := left) (SameAll.keeps ?_)) h
    exact sameAll_of_ch rfl
  next => exact keepsAll_of_next h

theorem keepsAll_execStartUpEnd {s t : State} (h : execStartUpEnd s = .next t) : KeepsAll s t := by
  unfold execStartUpEnd at h
  split at h
  · exact keepsAll_of_done (keepsAll_endStartUp _).elapsed h
  · exact keepsAll_of_next h

theorem keepsAll_execWakeComplete {s t : State} (h : execWakeComplete s = .next t) : KeepsAll s t := by
  unfold execWakeComplete at h
  split at h
  · exact keepsAll_of_done (keepsAll_wakeNow _).elapsed h
  · exact keepsAll_of_next h

theorem keepsAll_execResetRelease {s t : State} (h : execResetRelease s = .next t) : KeepsAll s t := by
  unfold execResetRelease at h
  split at h
  · refine keepsAll_of_done (SameAll.keeps ?_) h
    exact sameAll_of_ch rfl
  · exact keepsAll_of_next h

theorem keepsAll_execSlowStep {s t : State} (h : execSlowStep s = .next t) : KeepsAll s t := by
  unfold execSlowStep at h
  split at h
  · exact keepsAll_of_done (keepsAll_slowStep _) h
  · exact keepsAll_of_next h

theorem keepsAll_execWindowExpiry {s t : State} (h : execWindowExpiry s = .next t) : KeepsAll s t := by
  unfold execWindowExpiry at h
  split at h
  · exact keepsAll_of_done (keepsAll_expiryStep _) h
  · exact keepsAll_of_next h

theorem keepsAll_execCharacterArrival {char : Byte} {fe : Bool} {s t : State} (h : execCharacterArrival char fe s = .next t) :
    KeepsAll s t := by
  unfold execCharacterArrival at h
  split at h
  · split at h
    · split at h
      · exact keepsAll_of_next h
      · refine keepsAll_of_done (SameAll.keeps (SameAll.trans ?_ (sameAll_receive _ _ _))) h
        exact sameAll_of_ch rfl
    · exact keepsAll_of_done ((sameAll_wakeBegins _ _).trans (sameAll_receive _ _ _)).keeps h
  · exact keepsAll_of_next h

theorem keepsAll_execFrameTimeout {s t : State} (h : execFrameTimeout s = .next t) : KeepsAll s t := by
  unfold execFrameTimeout at h
  split at h
  · refine keepsAll_of_done (KeepsAll.elapsed (n := s.link.rxLeft) (SameAll.keeps (SameAll.trans ?_ (sameAll_receive _ _ _)))) h
    exact sameAll_of_ch rfl
  · exact keepsAll_of_next h

theorem keepsAll_execUnknownType {type tag : Byte} {p : List Byte} {s t : State} (h : execUnknownType type tag p s = .next t) :
    KeepsAll s t := by
  unfold execUnknownType at h
  split at h
  · exact keepsAll_of_next h
  · refine keepsAll_of_done (SameAll.keeps ?_) h
    exact sameAll_of_ch rfl

/-- Every command keeps the channels, resets them, or ends one's calibration with a new offset (R13, R38). -/
theorem exec_channelOutcome {i : Instr} {s t : State} (h : exec i s = .next t) : ChannelOutcome i s t := by
  cases i with
  | ident tag p => exact .kept (keepsAll_takeRequest (owner := ownIdent) (fun _ => .refl _) h)
  | setLink tag p => exact .kept (keepsAll_takeRequest (keepsAll_ownSetLink · s) h)
  | setLinkInForce => exact .kept (keepsAll_execSetLinkInForce h)
  | reset tag p => exact .kept (keepsAll_takeRequest (owner := ownReset) (fun _ => (sameAll_of_ch rfl).keeps) h)
  | messageReset => exact channelOutcome_messageReset h
  | sleep tag p => exact .kept (keepsAll_takeRequest (fun _ => keepsAll_ownSleep s) h)
  | quietEntry => exact .kept (keepsAll_execQuietEntry h)
  | deviceStatus tag p => exact .kept (keepsAll_takeRequest (keepsAll_ownStatus · s) h)
  | channelStatus tag p => exact .kept (keepsAll_takeRequest (keepsAll_ownStatus · s) h)
  | recover tag p => exact .kept (keepsAll_takeRequest (fun _ => keepsAll_ownRecover s) h)
  | supervise tag p => exact .kept (keepsAll_takeRequest (keepsAll_ownSupervise · s) h)
  | heartbeat tag p => exact .kept (keepsAll_takeRequest (keepsAll_ownHeartbeat · s) h)
  | carrier tag p => exact .kept (keepsAll_takeRequest (keepsAll_ownCarrier · s) h)
  | converter tag p => exact .kept (keepsAll_takeRequest (keepsAll_ownConverter · s) h)
  | auxPlan tag p => exact .kept (keepsAll_takeRequest (keepsAll_ownAuxPlan · s) h)
  | limits tag p => exact .kept (keepsAll_takeRequest (keepsAll_ownLimits · s) h)
  | channelSetup tag p => exact .kept (keepsAll_takeRequest (keepsAll_ownSetup · s) h)
  | activate tag p => exact .kept (keepsAll_takeRequest (keepsAll_ownActivate · s) h)
  | profile tag p => exact .kept (keepsAll_takeRequest (keepsAll_ownProfile · s) h)
  | calibrate tag p => exact .kept (keepsAll_takeRequest (keepsAll_ownCalibrate · s) h)
  | start tag p => exact .kept (keepsAll_takeRequest (keepsAll_ownStart · s) h)
  | stopCoast tag p => exact .kept (keepsAll_takeRequest (keepsAll_ownStop · s) h)
  | stopBrake tag p => exact .kept (keepsAll_takeRequest (keepsAll_ownStop · s) h)
  | vectorSet tag p => exact .kept (keepsAll_takeRequest (keepsAll_ownVectorSet · s) h)
  | stepSet tag p => exact .kept (keepsAll_takeRequest (keepsAll_ownStepSet · s) h)
  | clearTrip tag p => exact .kept (keepsAll_takeRequest (keepsAll_ownClearTrip · s) h)
  | unknownType type tag p => exact .kept (keepsAll_execUnknownType (p := p) h)
  | powerOnReset v => exact channelOutcome_powerOnReset h
  | pinReset => exact channelOutcome_pinReset h
  | startUpEnd => exact .kept (keepsAll_execStartUpEnd h)
  | masterPeriodStart => exact .kept (keepsAll_execMasterPeriodStart h)
  | busStale => exact .kept (keepsAll_of_done (sameAll_busStaleStep _).keeps h)
  | channelPeriodStart c => exact .kept (keepsAll_execChannelPeriodStart h)
  | stale c => exact .kept (keepsAll_of_done (sameAll_staleWarn _ c).keeps h)
  | staleTrip c => exact .kept (keepsAll_of_done (keepsAll_staleTripStep _ c) h)
  | calTimeout c => exact .kept (keepsAll_of_done (keepsAll_calTimeoutStep _ c) h)
  | halfPeriodPoint c => exact .kept (keepsAll_execHalfPeriodPoint h)
  | lostSync c => exact .kept (keepsAll_of_done (keepsAll_lostSyncStep _ c) h)
  | commutationDue c => exact .kept (keepsAll_execCommutationDue h)
  | gateEdge c x => exact .kept (keepsAll_execGateEdge h)
  | pendingTurnOn c x side => exact .kept (keepsAll_execPendingTurnOn h)
  | conversionStart => exact .kept (keepsAll_execConversionStart h)
  | conversionComplete raw => exact channelOutcome_conversionComplete h
  | calDone c => exact channelOutcome_calDone h
  | handover c tzc => exact .kept (keepsAll_execHandover h)
  | late slot => exact .kept (keepsAll_execLate h)
  | currentLimit c => exact .kept (keepsAll_of_done (keepsAll_limitStep _ c _) h)
  | periodReport c => exact .kept (keepsAll_execPeriodReport h)
  | faultInputAssertion c => exact .kept (keepsAll_execFaultInputAssertion h)
  | faultInputRelease c => exact .kept (keepsAll_execFaultInputRelease h)
  | slowStep => exact .kept (keepsAll_execSlowStep h)
  | windowExpiry => exact .kept (keepsAll_execWindowExpiry h)
  | characterArrival char fe => exact .kept (keepsAll_execCharacterArrival h)
  | wakeComplete => exact .kept (keepsAll_execWakeComplete h)
  | frameTimeout => exact .kept (keepsAll_execFrameTimeout h)
  | frameSent => exact channelOutcome_frameSent h
  | gapEnd => exact .kept (keepsAll_execGapEnd h)
  | resetRelease => exact .kept (keepsAll_execResetRelease h)

theorem ChannelOutcome.channelsFit {i : Instr} {s t : State} (h : ChannelOutcome i s t) (hs : s.channelsFit) : t.channelsFit := by
  cases h with
  | kept h => exact h.channelsFit hs
  | reset _ ht => exact ht.channelsFit
  | offset c _ ht => exact ht.channelsFit hs

/-- The idle step raises a command or lets one tick pass: neither touches more than bookkeeping. -/
theorem sameAll_idle (s : State) : SameAll s s.idle := by
  have raised : ∀ i b, SameAll s (s.raise i b) := by
    intro i b
    refine sameAll_of_ch ?_
    unfold State.raise
    cases b <;> rfl
  unfold State.idle
  simp only
  split
  · exact raised _ _
  · split
    · exact raised _ _
    · exact sameAll_elapse _ _

/-- Settles O11: a step is a command, which `exec_channelOutcome` speaks of, or the idle step. -/
theorem gatesFitTheChannelState : Obligations.GatesFitTheChannelState := by
  intro s t hs h
  unfold step at h
  split at h
  next i rest _ =>
    have hdropped : SameAll s { s with pending := rest } := sameAll_of_ch rfl
    exact (exec_channelOutcome h).channelsFit (hdropped.keeps.channelsFit hs)
  next =>
    cases h
    exact (sameAll_idle s).keeps.channelsFit hs

/-- Settles O13: a command that keeps the channels keeps every Z, and the other outcomes name their commands. -/
theorem onlyCalibrationOrResetWritesTheZeroOffset : Obligations.OnlyCalibrationOrResetWritesTheZeroOffset := by
  intro i s t c h hz
  cases exec_channelOutcome h with
  | kept hk => exact absurd (hk c).z hz
  | reset hr _ =>
    rcases hr with hv | hp | hm
    · exact .inl hv
    · exact .inr (.inl hp)
    · exact .inr (.inr (.inl hm))
  | offset x hb hc =>
    by_cases hx : c = x
    · subst hx
      have ends := And.intro hc.before (And.intro hc.after (And.intro hc.low hc.high))
      rcases hb with ⟨hi, hn⟩ | ⟨raw, v, hi, hv, ho, hp, hn⟩
      · exact .inr (.inr (.inr (.inl ⟨hi, ends, hn⟩)))
      · exact .inr (.inr (.inr (.inr ⟨raw, v, hi, hv, ho, hp, ends, hn⟩)))
    · exact absurd (hc.others c hx).z hz

/-! ### A trip of a driving channel (R30, R137 to R140) -/

theorem reachCause_of_driving {s : State} {c : Chan} (k : TripCause) (h : (s.chan c).state.driving = true) :
    s.reachCause c k = s.enterTripped c k := by
  rcases s.reachCause_cases c k with ⟨_, he⟩ | ⟨ht, _⟩ | ⟨hc, _⟩ | ⟨hd, _⟩
  · exact he
  · exact absurd ht (ne_tripped_of_driving h)
  · rw [hc] at h; cases h
  · rw [hd] at h; cases h

/-- A trip flushes its channel's entries and leaves the converter (R114). -/
theorem enterTripped_sched (s : State) (c : Chan) (k : TripCause) :
    (s.enterTripped c k).sched = { s.sched with timeline := s.sched.timeline.filter (fun e => !e.ownedBy c) } := rfl

theorem enterTripped_link (s : State) (c : Chan) (k : TripCause) :
    (s.enterTripped c k).link =
      s.link.queueEvent { code := .trip, chan := some c, seq := s.masterSeqNow, repeats := 1, detail := k.code } := rfl

theorem enterTripped_tb (s : State) (c : Chan) (k : TripCause) : (s.enterTripped c k).tb = s.tb := rfl

/-- After a flush nothing of the channel waits. -/
theorem waiting_of_flushed (q : Scheduler) (c : Chan) :
    ({ q with timeline := q.timeline.filter (fun e => !e.ownedBy c) } : Scheduler).waiting c = 0 := by
  simp [Scheduler.waiting]

theorem tripGates_openAll (braking : Bool) (g : Gates) (now : Time) (d : Nat) : AllOff (tripGates braking .openAll g now d) :=
  allOff_allOff _ _ _

theorem tripGates_short (g : Gates) (now : Time) (d : Nat) : tripGates false .short g now d = Gates.bottomsOn g now d := rfl

theorem tripGates_braking (g : Gates) (now : Time) (d : Nat) : tripGates true .short g now d = g := rfl

/-- Settles O49: the channel is the one that `State.chan_enterTripped_same` gives, its gates by the safe state and by whether it was
braking. -/
theorem tripPutsADrivingChannelIntoItsSafeState : Obligations.TripPutsADrivingChannelIntoItsSafeState := by
  intro s c k hd
  rw [reachCause_of_driving k hd]
  have chan := s.chan_enterTripped_same c k
  rw [State.chan_endRun_same] at chan
  intro t safe
  have gates : (t.chan c).gates = tripGates ((s.chan c).state == .braking) safe (s.chan c).gates s.tb.now s.tb.d :=
    congrArg Channel.gates chan
  have tops : ∀ x, ((t.chan c).gates.get x).top = false ∨ ((s.chan c).state = .braking ∧ safe = .short) := by
    intro x
    rw [gates]
    by_cases hb : (s.chan c).state = .braking
    · cases safe with
      | openAll => exact .inl (tripGates_openAll _ _ _ _ x).1
      | short => exact .inr ⟨hb, rfl⟩
    · rw [beq_eq_false_iff_ne.2 hb]
      cases safe with
      | openAll => exact .inl (tripGates_openAll _ _ _ _ x).1
      | short => exact .inl (topsOff_bottomsOn _ _ _ x).1
  have opened : safe = .openAll → ∀ x, ((t.chan c).gates.get x).bottom = false ∧
      ((t.chan c).gates.get x).bottomPend = none ∧ ((t.chan c).gates.get x).topPend = none := by
    intro ho x
    rw [gates, ho]
    obtain ⟨_, hbottom, htp, hbp⟩ := tripGates_openAll ((s.chan c).state == .braking) (s.chan c).gates s.tb.now s.tb.d x
    exact ⟨hbottom, hbp, htp⟩
  have shorted : safe = .short → (s.chan c).state ≠ .braking →
      Gates.bottomsEntered (s.chan c).gates (t.chan c).gates s.tb.now s.tb.d := by
    intro hs hb
    rw [gates, hs, beq_eq_false_iff_ne.2 hb, tripGates_short]
    exact Gates.bottomsOn_entered _ _ _
  have braked : safe = .short → (s.chan c).state = .braking → (t.chan c).gates = (s.chan c).gates := by
    intro hs hb
    rw [gates, hs, hb]
    exact tripGates_braking _ _ _
  exact ⟨congrArg Channel.state chan, congrArg Channel.safe chan, congrArg Channel.trip chan, congrArg Channel.nextPlan chan,
    congrArg Channel.curPlan chan, congrArg (·.sq.compare) chan, congrArg (·.rb.work) chan, waiting_of_flushed _ _,
    congrArg Channel.flushed chan, tops, opened, shorted, braked, (congrArg Channel.slot chan :), (congrArg Channel.z chan :),
    (congrArg Channel.active chan :), fun x hx => s.chan_enterTripped_other k hx, enterTripped_tb s c k,
    (congrArg Scheduler.conv (enterTripped_sched s c k) :), enterTripped_link s c k⟩

/-! ### Requests that address a channel -/

/-- A channel field that names no channel (R18). -/
theorem chanOf_none {n : Nat} (h : n = 0 ∨ 3 < n) : chanOf n = none := by
  rcases h with rfl | h
  · rfl
  · obtain ⟨m, rfl⟩ := Nat.exists_eq_add_of_le' h
    rfl

theorem onChannel_none {n : Nat} (h : n = 0 ∨ 3 < n) (owner : Chan → State → State × Answer) (s : State) :
    onChannel n owner s = (s, badValue 1) := by
  simp [onChannel, chanOf_none h]

theorem takeRequest_noChannel {α : Type} (type tag : Byte) (pl : Bool) {fields : Option α} {a : α} (hf : fields = some a)
    (owner : α → State → State × Answer) {s : State} (hs : s.takes) (ho : owner a s = (s, badValue 1)) :
    takeRequest type tag pl fields owner s = .next (s.replied type tag { code := .badValue, extra := [1] }) := by
  rw [hf, takeRequest_taken _ _ _ _ _ _ hs, ho]
  rfl

/-- Settles O33: every owner of a channel request is an `onChannel` of the first field. -/
theorem channelFieldNamingNoneFailsAsFieldOne : Obligations.ChannelFieldNamingNoneFailsAsFieldOne := by
  intro tag s hs
  refine ⟨fun n hn => ?_, fun n p hn => ⟨fun l hp => ?_, fun x hp => ?_, fun f hp hf => ?_, fun f hp hf => ?_⟩⟩
  · have none : ∀ owner, onChannel n.toNat owner s = (s, badValue 1) := fun owner =>
      onChannel_none (hn.imp_left fun h => by rw [h]; rfl) owner s
    exact ⟨takeRequest_noChannel _ _ _ rfl ownActivate hs (none _), takeRequest_noChannel _ _ _ rfl ownCalibrate hs (none _),
      takeRequest_noChannel _ _ _ rfl ownStart hs (none _), fun _ _ _ _ => takeRequest_noChannel _ _ _ rfl ownStart hs (none _),
      fun _ => ⟨takeRequest_noChannel _ _ _ rfl ownStop hs (none _), takeRequest_noChannel _ _ _ rfl ownStop hs (none _)⟩,
      takeRequest_noChannel _ _ _ rfl ownClearTrip hs (none _)⟩
  · exact takeRequest_noChannel _ _ _ hp ownSetup hs (onChannel_none hn _ _)
  · exact takeRequest_noChannel _ _ _ hp ownProfile hs (onChannel_none hn _ _)
  · exact takeRequest_noChannel _ _ _ hp ownVectorSet hs (onChannel_none (hf ▸ hn) _ _)
  · exact takeRequest_noChannel _ _ _ hp ownStepSet hs (onChannel_none (hf ▸ hn) _ _)

theorem read1_chanByte (c : Chan) : read1 [chanByte c] = some (chanCode c) := by simp [read1]

theorem read11_chanByte (c : Chan) (m : Byte) : read11 [chanByte c, m] = some (chanCode c, m.toNat) := by simp [read11]

theorem readStart_chanByte (c : Chan) : readStart [chanByte c] = some (chanCode c, none) := by simp [readStart]

theorem readStart_stepFields (c : Chan) (d f l i : Byte) :
    readStart [chanByte c, d, f, l, i] = some (chanCode c, some ⟨d.toNat, f.toNat, l.toNat, i.toNat⟩) := by
  simp [readStart]

/-! ### CALIBRATE and CLEAR_TRIP -/

/-- Settles O37, by R36's three cases. -/
theorem calibrateBeginsFromStopped : Obligations.CalibrateBeginsFromStopped := by
  intro tag c s hs
  have owner : exec (.calibrate tag [chanByte c]) s = takeRequest 0x23 tag false (some (chanCode c)) ownCalibrate s := by
    rw [← read1_chanByte]; rfl
  rw [owner, takeRequest_taken _ _ _ _ _ _ hs]
  unfold ownCalibrate
  rw [onChannel_chanCode]
  split_ifs <;> rfl

/-- Settles O42, by R31's three cases. -/
theorem clearTripEndsTheEpisode : Obligations.ClearTripEndsTheEpisode := by
  intro tag c s hs
  have owner : exec (.clearTrip tag [chanByte c]) s = takeRequest 0x28 tag false (some (chanCode c)) ownClearTrip s := by
    rw [← read1_chanByte]; rfl
  rw [owner, takeRequest_taken _ _ _ _ _ _ hs]
  unfold ownClearTrip
  rw [onChannel_chanCode]
  split_ifs
  · rfl
  · rfl
  · rw [modGates_modCh]
    rfl

/-! ### START -/

theorem start_owner (tag : Byte) (p : List Byte) (c : Chan) (f : Option StepFields) (s : State) (hs : s.takes)
    (hp : readStart p = some (chanCode c, f)) :
    exec (.start tag p) s =
      .next ((ownStart (chanCode c, f) s).1.replied 0x24 tag (ownStart (chanCode c, f) s).2) := by
  rw [← takeRequest_taken _ _ false _ _ _ hs, ← hp]
  rfl

/-- A profile place that holds a segment. -/
theorem getD_isSome_iff (profile : List (Option Segment)) (i : Nat) :
    (profile.getD i none).isSome = true ↔ ∃ g, profile[i]? = some (some g) := by
  rw [List.getD_eq_getElem?_getD]
  cases h : profile[i]? with
  | none => simp
  | some o => simp [Option.isSome_iff_exists]

/-- R24's test of a run range within the sixteen places. -/
theorem rangeFilled_iff (profile : List (Option Segment)) {first last : Nat} (hl : last ≤ 15) :
    rangeFilled profile first last = true ↔ ∀ j, first ≤ j → j ≤ last → ∃ g, profile[j]? = some (some g) := by
  simp only [rangeFilled, List.all_eq_true, List.mem_range, Bool.or_eq_true, decide_eq_true_eq, getD_isSome_iff]
  constructor
  · intro h j hf hj
    rcases h j (by omega) with (h | h) | h
    · omega
    · omega
    · exact h
  · intro h j _
    by_cases hf : j < first
    · exact .inl (.inl hf)
    · by_cases hj : last < j
      · exact .inl (.inr hj)
      · exact .inr (h j (by omega) (by omega))

/-- START of a channel by R24's checks up to the fault input. -/
theorem ownStart_not_stopped {s : State} {c : Chan} (f : Option StepFields) (h : (s.chan c).state ≠ .stopped) :
    ownStart (chanCode c, f) s = (s, wrongState) := by
  simp [ownStart, h]

theorem ownStart_other_kind {s : State} {c : Chan} {f : Option StepFields} (h : (s.chan c).state = .stopped)
    (hk : (s.chan c).active.kind = .vector ∧ f.isSome = true ∨ (s.chan c).active.kind = .step ∧ f = none) :
    ownStart (chanCode c, f) s = (s, conflict c) := by
  rcases hk with ⟨hk, hf⟩ | ⟨hk, rfl⟩
  · obtain ⟨g, rfl⟩ := Option.isSome_iff_exists.1 hf
    simp [ownStart, h, hk]
  · simp [ownStart, h, hk]

theorem ownStart_fault {s : State} {c : Chan} {f : Option StepFields} (h : (s.chan c).state = .stopped)
    (hk : (s.chan c).active.kind = .vector ∧ f = none ∨ (s.chan c).active.kind = .step ∧ f.isSome = true)
    (hl : s.prot.levels.get c = true) : ownStart (chanCode c, f) s = (s, { code := .faultActive }) := by
  rcases hk with ⟨hk, rfl⟩ | ⟨hk, hf⟩
  · simp [ownStart, h, hk, hl]
  · obtain ⟨g, rfl⟩ := Option.isSome_iff_exists.1 hf
    simp [ownStart, h, hk, hl]

/-- START of a vector channel that is ready goes by its setpoint slot (R24, R25). -/
theorem ownStart_vector {s : State} {c : Chan} (h : (s.chan c).state = .stopped) (hk : (s.chan c).active.kind = .vector)
    (hl : s.prot.levels.get c = false) :
    ownStart (chanCode c, none) s =
      if (s.chan c).slot = none then (s, { code := .noSetpoint }) else (s.modCh c Channel.startVector, ok) := by
  simp [ownStart, h, hk, hl]

/-- START of a step channel that is ready goes by its step fields (R24, R26). -/
theorem ownStart_step_refused {s : State} {c : Chan} {g : StepFields} {n : Nat} (h : (s.chan c).state = .stopped)
    (hk : (s.chan c).active.kind = .step) (hl : s.prot.levels.get c = false) (hf : startFailing (s.chan c).sq g = some n) :
    ownStart (chanCode c, some g) s = (s, badValue n) := by
  simp [ownStart, h, hk, hl, hf]

theorem ownStart_step_accepted {s : State} {c : Chan} {g : StepFields} (h : (s.chan c).state = .stopped)
    (hk : (s.chan c).active.kind = .step) (hl : s.prot.levels.get c = false) (hf : startFailing (s.chan c).sq g = none) :
    ownStart (chanCode c, some g) s = (s.modCh c (·.startStep g (s.segmentAt c g.first).kind), ok) := by
  simp [ownStart, h, hk, hl, hf]

/-! R24's step fields, in the order of their checks. -/

theorem startFailing_of_first {q : StepSeq} {f : StepFields} (hd : f.dir ≤ 1) (h : 15 < f.first) :
    startFailing q f = some 3 := by
  rw [startFailing, if_neg (by omega), if_pos h]

theorem startFailing_of_last {q : StepSeq} {f : StepFields} (hd : f.dir ≤ 1) (hf : f.first ≤ 15)
    (h : 15 < f.last ∨ f.last < f.first) : startFailing q f = some 4 := by
  rw [startFailing, if_neg (by omega), if_neg (by omega), if_pos h]

theorem startFailing_of_range {q : StepSeq} {f : StepFields} (hd : f.dir ≤ 1) (hl : f.last ≤ 15) (hfl : f.first ≤ f.last)
    (h : rangeFilled q.profile f.first f.last = false) : startFailing q f = some 3 := by
  rw [startFailing, if_neg (by omega), if_neg (by omega), if_neg (by omega), h]
  rfl

theorem startFailing_of_filled {q : StepSeq} {f : StepFields} (hd : f.dir ≤ 1) (hl : f.last ≤ 15) (hfl : f.first ≤ f.last)
    (h : rangeFilled q.profile f.first f.last = true) : startFailing q f = if 5 < f.index then some 5 else none := by
  rw [startFailing, if_neg (by omega), if_neg (by omega), if_neg (by omega), h]
  rfl

theorem segmentAt_of_place {s : State} {c : Chan} {i : Nat} {g : Segment} (h : (s.chan c).sq.profile[i]? = some (some g)) :
    s.segmentAt c i = g := by
  simp [State.segmentAt, List.getD_eq_getElem?_getD, h]

theorem start_vector (tag : Byte) (c : Chan) (s : State) (hs : s.takes) :
    exec (.start tag [chanByte c]) s =
      .next (if (s.chan c).state ≠ .stopped then s.replied 0x24 tag { code := .wrongState }
        else if (s.chan c).active.kind = .step then s.replied 0x24 tag { code := .conflict, extra := [chanByte c] }
        else if s.prot.levels.get c then s.replied 0x24 tag { code := .faultActive }
        else if (s.chan c).slot = none then s.replied 0x24 tag { code := .noSetpoint }
        else (s.modCh c Channel.startVector).replied 0x24 tag { code := .ok }) := by
  rw [start_owner tag _ c none s hs (readStart_chanByte c)]
  split_ifs with hst hk hl hslot
  · rw [ownStart_not_stopped none hst]; rfl
  · rw [ownStart_other_kind (not_not.1 hst) (.inr ⟨hk, rfl⟩)]; rfl
  all_goals
    have hst := not_not.1 hst
    have hv : (s.chan c).active.kind = .vector := by cases h : (s.chan c).active.kind <;> simp_all
  · rw [ownStart_fault hst (.inl ⟨hv, rfl⟩) hl]
  all_goals
    rw [ownStart_vector hst hv (Bool.eq_false_iff.2 hl)]
  · rw [if_pos hslot]
  · rw [if_neg hslot]; rfl

/-- The state that an accepted START of a step channel leaves, less its reply (R26, R82). -/
theorem startStep_eq (k : Channel) (d f l i : Byte) (kind : SegKind) :
    k.startStep ⟨d.toNat, f.toNat, l.toNat, i.toNat⟩ kind =
      { k with
        state := match kind with | .align => .align | .ramp => .ramp
        sq :=
          { k.sq with
            dir := if d = 0 then .forward else .reverse
            first := f.toNat, last := l.toNat, seg := f.toNat, index := i.toNat, j := 0
            advance := k.active.advance, compare := none, lastComm := none, lastZc := none, prev := none
            found := false, blanking := 0, miss := 0, qualified := 0 }
        vm := { k.vm with age := 0, marker := false }
        rb := { k.rb with cur := ⟨.invalid, .invalid, .invalid⟩, curSeq := none, overCount := 0, report := 0 } } := by
  have hd : (d.toNat = 0) = (d = 0) := by rw [BitVec.toNat_eq]; rfl
  simp only [Channel.startStep, StepSeq.started, hd]
  cases kind <;> rfl

/-- Settles O38: the vector form by R24's checks in order; the step form by `startFailing` once the channel is ready. -/
theorem startChecksThenRuns : Obligations.StartChecksThenRuns := by
  refine ⟨start_vector, fun tag d f l i c s hs => ?_⟩
  intro k run bad ready filled
  have answered := start_owner tag _ c _ s hs (readStart_stepFields c d f l i)
  have refused : ∀ n, ready → startFailing k.sq ⟨d.toNat, f.toNat, l.toNat, i.toNat⟩ = some n →
      run = .next (s.replied 0x24 tag (badValue n)) := by
    rintro n ⟨hst, hk, hl⟩ hn
    rw [show run = _ from answered, ownStart_step_refused hst hk hl hn]
  refine ⟨fun hst => ?_, fun hst hk => ?_, fun hst hk hl => ?_, fun hr hd => ?_, fun hr hd hf => ?_, fun hr hd hf hl => ?_,
    fun hr hd hl hfl hfill => ?_, fun hr hd hl hfl hfill hi => ?_, fun hr hd hl hfl hfill hi g hg => ?_⟩
  · rw [show run = _ from answered, ownStart_not_stopped _ hst]; rfl
  · rw [show run = _ from answered, ownStart_other_kind hst (.inl ⟨hk, rfl⟩)]; rfl
  · rw [show run = _ from answered, ownStart_fault hst (.inr ⟨hk, rfl⟩) hl]
  · exact refused 2 hr (if_pos hd)
  · exact refused 3 hr (startFailing_of_first hd hf)
  · exact refused 4 hr (startFailing_of_last hd hf hl)
  · have hrange := Bool.eq_false_iff.2 (mt (rangeFilled_iff k.sq.profile hl).1 hfill)
    exact refused 3 hr (startFailing_of_range hd hl hfl hrange)
  · have hrange := (rangeFilled_iff k.sq.profile hl).2 hfill
    exact refused 5 hr ((startFailing_of_filled hd hl hfl hrange).trans (if_pos hi))
  · have hrange := (rangeFilled_iff k.sq.profile hl).2 hfill
    have hnone := (startFailing_of_filled (q := k.sq) (f := ⟨d.toNat, f.toNat, l.toNat, i.toNat⟩) hd hl hfl hrange).trans
      (if_neg (Nat.not_lt.2 hi))
    obtain ⟨hst, hk, hlev⟩ := hr
    rw [show run = _ from answered, ownStart_step_accepted hst hk hlev hnone]
    simp only [segmentAt_of_place hg, startStep_eq]
    rfl

/-! ### STOP -/

/-- Either row of STOP is its owner's. -/
theorem stop_owner (tag : Byte) (c : Chan) (m : Byte) {s : State} (hs : s.takes) :
    takeRequest 0x25 tag false (read11 [chanByte c, m]) ownStop s =
      .next ((ownStop (chanCode c, m.toNat) s).1.replied 0x25 tag (ownStop (chanCode c, m.toNat) s).2) := by
  rw [read11_chanByte, takeRequest_taken _ _ _ _ _ _ hs]

theorem ownStop_coast (c : Chan) (s : State) : ownStop (chanCode c, 0) s = s.stopCoast c := by simp [ownStop]

theorem ownStop_brake (c : Chan) (s : State) : ownStop (chanCode c, 1) s = s.stopBrake c := by simp [ownStop]

theorem ownStop_undefined (c : Chan) {m : Nat} (h : 1 < m) (s : State) : ownStop (chanCode c, m) s = (s, badValue 2) := by
  obtain ⟨n, rfl⟩ := Nat.exists_eq_add_of_le' h
  simp [ownStop]

theorem stopCoast_of_driving {s : State} {c : Chan} (h : (s.chan c).state.driving = true) :
    s.stopCoast c = (s.toStopped c, ok) := by
  unfold State.stopCoast
  cases hs : (s.chan c).state <;> simp [hs, ChanState.driving, ChanState.running] at h ⊢

theorem stopBrake_of_running {s : State} {c : Chan} (h : (s.chan c).state.running = true) :
    s.stopBrake c = (s.toBraking c, ok) := by
  unfold State.stopBrake
  cases hs : (s.chan c).state <;> simp [hs, ChanState.running] at h ⊢

theorem toStopped_eq (s : State) (c : Chan) :
    s.toStopped c =
      (s.endRun c).modCh c fun x => { x with state := .stopped, gates := Gates.allOff x.gates s.tb.now s.tb.d } := by
  unfold State.toStopped
  rw [modGates_modCh]

/-- An update of a channel is its value on the channel. -/
theorem modCh_congr {s : State} {c : Chan} {f g : Channel → Channel} (h : f (s.chan c) = g (s.chan c)) :
    s.modCh c f = s.modCh c g := by
  unfold State.modCh
  rw [show f (s.ch.get c) = g (s.ch.get c) from h]

theorem toBraking_eq (s : State) (c : Chan) :
    s.toBraking c =
      (s.endRun c).modCh c fun x =>
        { x with state := .braking, gates := Gates.bottomsOn (s.chan c).gates s.tb.now s.tb.d } := by
  unfold State.toBraking
  rw [modGates_modCh]
  refine modCh_congr ?_
  simp only [State.chan_endRun_same]

/-- Settles O39, by channel state and mode. -/
theorem stopActsByStateAndMode : Obligations.StopActsByStateAndMode := by
  intro tag c s hs k coast brake ended
  have hcoast : coast = .next ((s.stopCoast c).1.replied 0x25 tag (s.stopCoast c).2) := by
    rw [← ownStop_coast]; exact stop_owner tag c 0 hs
  have hbrake : brake = .next ((s.stopBrake c).1.replied 0x25 tag (s.stopBrake c).2) := by
    rw [← ownStop_brake]; exact stop_owner tag c 1 hs
  refine ⟨fun hk => ?_, fun hk => ?_, fun hk => ?_, fun hk => ?_, fun hk => ?_, fun hk => ?_, fun m hm => ?_⟩
  · rw [hcoast, hbrake, State.stopCoast, State.stopBrake]
    rcases hk with hk | hk <;> rw [show (s.chan c).state = _ from hk] <;> exact ⟨rfl, rfl⟩
  · rw [hcoast, hbrake, State.stopCoast, State.stopBrake, show (s.chan c).state = _ from hk]
    exact ⟨rfl, rfl⟩
  · rw [hbrake, State.stopBrake, show (s.chan c).state = _ from hk]
    rfl
  · refine ⟨s.calFailed c .aborted, s.calFailed_endsCalibration c .aborted, ?_⟩
    rw [hcoast, hbrake, State.stopCoast, State.stopBrake, show (s.chan c).state = _ from hk]
    exact ⟨rfl, rfl⟩
  · rw [hcoast, stopCoast_of_driving hk, toStopped_eq]
    rfl
  · refine ⟨Gates.bottomsOn k.gates s.tb.now s.tb.d, Gates.bottomsOn_entered _ _ _, ?_⟩
    rw [hbrake, stopBrake_of_running hk, toBraking_eq]
    rfl
  · refine (stop_owner tag c m hs).trans ?_
    rw [ownStop_undefined c hm]
    rfl

/-! ### CHANNEL_SETUP -/

/-- A pair of CHANNEL_SETUP within Table 2-1. -/
theorem fieldInRange_iff (n v : Nat) :
    fieldInRange n v = true ↔
      ((n = 1 ∨ n = 3 ∨ n = 6) ∧ v ≤ 1) ∨ (n = 2 ∧ v ≤ 19999) ∨ ((n = 4 ∨ n = 16) ∧ v ≤ 1023) ∨
        (n = 5 ∧ 20 ≤ v ∧ v ≤ 255) ∨ ((n = 7 ∨ n = 10) ∧ 1 ≤ v ∧ v ≤ 4095) ∨
        (n = 8 ∧ 1 ≤ v ∧ v ≤ 15) ∨ (n = 9 ∧ v ≤ 255) ∨ (n = 11 ∧ 2 ≤ v ∧ v ≤ 4095) ∨
        (n = 12 ∧ v ≤ 31) ∨ (n = 13 ∧ v ≤ 15) ∨ (n = 14 ∧ 1 ≤ v ∧ v ≤ 7) ∨
        (n = 15 ∧ 2 ≤ v ∧ v ≤ 15) ∨ (n = 17 ∧ v ≤ 65535) := by
  unfold fieldInRange
  split <;> simp_all

/-- Writing a pair within Table 2-1 writes its one field. -/
theorem setField_of_inRange (r : ConfigRecord) {n v : Nat} (h : fieldInRange n v = true) :
    r.setField n v =
      { kind := if n = 1 then (if v = 0 then .vector else .step) else r.kind
        offset := if n = 2 then v else r.offset
        stretch := if n = 3 then decide (v = 1) else r.stretch
        window := if n = 4 then v else r.window
        lead := if n = 5 then v else r.lead
        safe := if n = 6 then (if v = 0 then .openAll else .short) else r.safe
        curLimit := if n = 7 then v else r.curLimit
        limitPeriods := if n = 8 then v else r.limitPeriods
        report := if n = 9 then v else r.report
        s1 := if n = 10 then v else r.s1
        s2 := if n = 11 then v else r.s2
        advance := if n = 12 then v else r.advance
        blanking := if n = 13 then v else r.blanking
        missLimit := if n = 14 then v else r.missLimit
        q := if n = 15 then v else r.q
        senseTol := if n = 16 then v else r.senseTol
        ceiling := if n = 17 then v else r.ceiling } := by
  have stretch : v ≤ 1 → (v != 0) = decide (v = 1) := by
    intro hv
    rcases Nat.le_one_iff_eq_zero_or_eq_one.1 hv with rfl | rfl <;> rfl
  unfold ConfigRecord.setField
  split
  case h_3 => simp [stretch (by simpa [fieldInRange] using h)]
  case h_18 => simp_all [fieldInRange_iff]
  all_goals simp

/-- CHANNEL_SETUP goes by its first pair out of range (R19). -/
theorem ownSetup_refused {c : Chan} {l : List (Nat × Nat)} {x : Nat × Nat} (s : State)
    (h : l.find? (fun x => !fieldInRange x.1 x.2) = some x) : ownSetup (chanCode c, l) s = (s, badValue x.1) := by
  simp [ownSetup, h]

theorem ownSetup_accepted {c : Chan} {l : List (Nat × Nat)} (s : State)
    (h : l.find? (fun x => !fieldInRange x.1 x.2) = none) :
    ownSetup (chanCode c, l) s =
      (s.modCh c (fun k => { k with staged := l.foldl (fun r x => r.setField x.1 x.2) k.staged }), ok) := by
  simp only [ownSetup, onChannel_chanCode, h]

/-- Settles O34: `find?` gives the first pair that is not good, and good pairs are written alike. -/
theorem channelSetupWritesTheStagedRecordAlone : Obligations.ChannelSetupWritesTheStagedRecordAlone := by
  intro tag p c l s hs hp good put
  have answered : exec (.channelSetup tag p) s =
      .next ((ownSetup (chanCode c, l) s).1.replied 0x20 tag (ownSetup (chanCode c, l) s).2) := by
    rw [← takeRequest_taken _ _ false _ _ _ hs, ← hp]
    rfl
  have hgood : ∀ x, fieldInRange x.1 x.2 = true ↔ good x := fun x => fieldInRange_iff x.1 x.2
  rw [answered]
  refine ⟨fun before x rest hl hb hx => ?_, fun hall => ?_⟩
  · have hfind : l.find? (fun x => !fieldInRange x.1 x.2) = some x := by
      rw [List.find?_eq_some_iff_append]
      refine ⟨by simpa using mt (hgood x).1 hx, before, rest, hl, fun y hy => ?_⟩
      simpa using (hgood y).2 (hb y hy)
    rw [ownSetup_refused s hfind]
    rfl
  · have hfind : l.find? (fun x => !fieldInRange x.1 x.2) = none := by
      rw [List.find?_eq_none]
      intro x hx
      simpa using (hgood x).2 (hall x hx)
    have hput : ∀ r, l.foldl (fun r x => r.setField x.1 x.2) r = l.foldl put r := fun r =>
      List.foldl_ext _ _ _ fun r x hx => setField_of_inRange r ((hgood x).2 (hall x hx))
    rw [ownSetup_accepted s hfind]
    simp only [hput]
    rfl

/-! ### Thresholds (R38, R39, R55, R56, R97, R132, R133) -/

theorem calTimeoutStep_met {s : State} {c : Chan} (hk : (s.chan c).state = .calibrating) (hp : 256 ≤ (s.chan c).calPeriods)
    (hr : (s.chan c).calResults < 64) : s.calTimeoutStep c = s.calFailed c .timeout := if_pos ⟨hk, hp, hr⟩

/-- The 64th result by whether the candidate offset lies in the accepted span (R38). -/
theorem calDoneStep_met {s : State} {c : Chan} (hk : (s.chan c).state = .calibrating) (hr : 64 ≤ (s.chan c).calResults) :
    s.calDoneStep c =
      if 1648 ≤ calCandidate (s.chan c).calSum ∧ calCandidate (s.chan c).calSum ≤ 2448 then
        ((s.toStopped c).modCh c (fun x => { x with z := calCandidate (s.chan c).calSum })).queueEvent .calDone (some c)
          (calCandidate (s.chan c).calSum)
      else s.calFailed c .range := if_pos ⟨hk, hr⟩

theorem limitStep_met {s : State} {c : Chan} (hk : (s.chan c).state.running = true)
    (hn : (s.chan c).active.limitPeriods ≤ (s.chan c).rb.overCount) :
    s.limitStep c (s.chan c).rb.overCount = s.reachCause c .currentLimit := by
  simp [State.limitStep, hk, hn]

theorem chan_emitReport_same (s : State) (c : Chan) (w : WorkRecord) :
    (s.emitReport c w).chan c = { s.chan c with rb := { (s.chan c).rb with report := 0 } } := by
  unfold State.emitReport
  simp only [State.chan_modRb_same]
  rfl

theorem chan_emitReport_other (s : State) {c x : Chan} (w : WorkRecord) (h : x ≠ c) : (s.emitReport c w).chan x = s.chan x := by
  unfold State.emitReport State.modRb
  simp only [State.chan_modCh_other _ _ h]
  rfl

/-! The link's three answers to a report (R171). -/

theorem handReport_replaced {l : Link} {c : Chan} (bytes : List Byte) (h : l.out.any (·.isReport c) = true) :
    (l.handReport c bytes).out = l.out.map (fun f => if f.isReport c then .report c bytes else f) ∧
      (l.handReport c bytes).replaced.get c = min 65535 (l.replaced.get c + 1) := by
  simp [Link.handReport, h, bump16]

theorem handReport_joined {l : Link} {c : Chan} (bytes : List Byte) (h : l.out.any (·.isReport c) = false)
    (hroom : l.out.length < 24) : (l.handReport c bytes).out = l.out ++ [.report c bytes] := by
  simp only [Link.handReport, h, outRoom, hroom, if_true, Bool.false_eq_true, if_false]

theorem handReport_skipped {l : Link} {c : Chan} (bytes : List Byte) (h : l.out.any (·.isReport c) = false)
    (hroom : 24 ≤ l.out.length) :
    (l.handReport c bytes).out = l.out ∧ (l.handReport c bytes).skipped.get c = min 65535 (l.skipped.get c + 1) := by
  simp only [Link.handReport, h, outRoom, Nat.not_lt.2 hroom, bump16, PerChan.get_set_same, Bool.false_eq_true, if_false,
    and_self]

theorem execPeriodReport_met {s : State} {c : Chan} {w : WorkRecord} (hk : (s.chan c).state.running = true)
    (hw : (s.chan c).rb.work = some w) (h1 : 1 ≤ (s.chan c).active.report) (hr : (s.chan c).active.report ≤ (s.chan c).rb.report) :
    execPeriodReport c s = .next (s.emitReport c w).settle := by
  have hne : (s.chan c).active.report ≠ 0 := by omega
  simp [execPeriodReport, hw, hk, hne, hr, done_eq]

/-- Settles O48, row by row: each row's examination with its threshold met. -/
theorem thresholdsHaveTheirEffects : Obligations.ThresholdsHaveTheirEffects := by
  intro c s k
  refine ⟨fun hk hs hm => ?_, fun hk hs => ?_, fun hk hp hr => ?_, fun hk hr => ?_, fun hk hm => ?_, fun hk hn => ?_,
    fun w hk hw h1 hr => ?_⟩
  · exact congrArg done (if_pos ⟨hk, hs, hm⟩)
  · exact congrArg done (if_pos ⟨hk, hs⟩)
  · exact ⟨s.calFailed c .timeout, s.calFailed_endsCalibration c .timeout, congrArg done (calTimeoutStep_met hk hp hr)⟩
  · intro z
    have hstep := calDoneStep_met hk hr
    refine ⟨s.calDoneStep c, rfl, fun hz => ?_, fun hz => ?_⟩
    · rw [hstep.trans (if_pos hz)]
      exact s.toStopped_endsCalibration c z .calDone z
    · rw [hstep.trans (if_neg (show ¬(1648 ≤ z ∧ z ≤ 2448) by omega))]
      exact s.calFailed_endsCalibration c .range
  · exact congrArg done (if_pos ⟨hk, hm⟩)
  · exact congrArg done (limitStep_met hk hn)
  · exact ⟨s.emitReport c w, s.reportPayload c w, execPeriodReport_met hk hw h1 hr, rfl, chan_emitReport_same s c w,
      fun x hx => chan_emitReport_other s w hx, handReport_replaced _, handReport_joined _, handReport_skipped _⟩

/-! ### STATUS: its answers (R40, R178, R179) -/

/-- STATUS passes the link in every device state in which a request can be taken (R158, R169). -/
theorem status_owner (tag n p : Byte) {s : State} (hs : s.canTake = true) :
    takeRequest 0x05 tag true (read11 [n, p]) ownStatus s =
      .next ((ownStatus (n.toNat, p.toNat) s).1.replied 0x05 tag (ownStatus (n.toNat, p.toNat) s).2) := by
  simp [takeRequest, read11, hs, done_eq, State.replied]

theorem ownStatus_device_absent {s : State} {p : Nat} (h : s.devicePart p = none) :
    ownStatus (0, p) s = (s, badValue 2) := by
  simp [ownStatus, h]

theorem ownStatus_device {s : State} {p : Nat} {b : List Byte} (h : s.devicePart p = some b) :
    ownStatus (0, p) s =
      ({ s with
        fresh := s.fresh + 1
        link := if p = 0 then { s.link with discarded := 0 } else s.link }, { code := .ok, extra := b }) := by
  by_cases hp : p = 0
  · subst hp; simp [ownStatus, h, State.modLink]
  · simp [ownStatus, h, hp]

theorem chanCode_ne_zero (c : Chan) : chanCode c ≠ 0 := by cases c <;> decide

theorem ownStatus_channel_absent {s : State} {c : Chan} {p : Nat} (h : s.channelPart c p = none) :
    ownStatus (chanCode c, p) s = (s, badValue 2) := by
  simp [ownStatus, chanCode_ne_zero, h]

theorem ownStatus_channel {s : State} {c : Chan} {p : Nat} {b : List Byte} (h : s.channelPart c p = some b) :
    ownStatus (chanCode c, p) s = ({ s with fresh := s.fresh + 1 }, { code := .ok, extra := b }) := by
  simp [ownStatus, chanCode_ne_zero, h]

theorem ownStatus_no_channel {n : Nat} (h : 3 < n) (p : Nat) (s : State) : ownStatus (n, p) s = (s, badValue 1) := by
  simp [ownStatus, show n ≠ 0 by omega, chanOf_none (.inr h)]

/-! ### STATUS: its bytes and lengths (Tables 11-3 and 11-4) -/

theorem le1_toNat (x : Byte) : le1 x.toNat = [x] := by simp [le1, byte]

theorem outstanding_eq (q : Scheduler) (c : Chan) :
    q.outstanding c =
      q.timeline.countP (fun e => decide (e.owner = .chan c)) +
        (match q.conv with | some v => if v.entry.owner = .chan c then 1 else 0 | none => 0) := by
  unfold Scheduler.outstanding Scheduler.waiting Scheduler.converting Entry.ownedBy
  cases q.conv <;> simp [beq_eq_decide]

@[simp] theorem length_le1 (n : Nat) : (le1 n).length = 1 := rfl
@[simp] theorem length_le2 (n : Nat) : (le2 n).length = 2 := rfl
@[simp] theorem length_le4 (n : Nat) : (le4 n).length = 4 := rfl
@[simp] theorem length_le2s (i : Int) : (le2s i).length = 2 := rfl
@[simp] theorem length_le4s (i : Int) : (le4s i).length = 4 := rfl
@[simp] theorem length_triple (p : PerChan Nat) : (triple p).length = 6 := rfl
@[simp] theorem length_auxBytes (a : AuxEntry) : a.bytes.length = 4 := rfl
@[simp] theorem length_currentBytes (c : PerPhase Current) : (currentBytes c).length = 6 := rfl

@[simp] theorem length_activityBytes (q : Scheduler) : q.activityBytes.length = 3 := by
  unfold Scheduler.activityBytes
  split <;> rfl

@[simp] theorem length_firstBytes (q : Scheduler) : q.firstBytes.length = 5 := by
  unfold Scheduler.firstBytes
  split <;> rfl

@[simp] theorem length_resultBytes (r : Option AuxResult) (x y : Byte) : (resultBytes r x y).length = 4 := by
  cases r <;> rfl

@[simp] theorem length_tripBytes (t : Option TripRecord) (f : Nat → Byte) : (tripBytes t f).length = 4 := by
  cases t <;> rfl

@[simp] theorem length_curSeqBytes (q : Option Seq) (f : Nat → Byte) : (curSeqBytes q f).length = 2 := by
  cases q <;> rfl

theorem length_devicePart0 (s : State) : s.devicePart0.length = 32 := by simp [State.devicePart0]

theorem length_devicePart1 {s : State} (h : s.sched.aux.length = 4) : s.devicePart1.length = 28 := by
  simp [State.devicePart1, List.length_flatMap, h]

theorem length_devicePart2 (s : State) : s.devicePart2.length = 27 := by simp [State.devicePart2]

theorem length_channelPart0 (s : State) (c : Chan) : (s.channelPart0 c).length = 31 := by simp [State.channelPart0]

theorem length_channelPart1 (s : State) (c : Chan) :
    (s.channelPart1 c).length = 17 + (kindBytes (s.chan c)).length := by
  simp [State.channelPart1]
  omega

theorem devicePart_absent (s : State) {n : Nat} (h : 3 ≤ n) : s.devicePart n = none := by
  obtain ⟨m, rfl⟩ := Nat.exists_eq_add_of_le' h
  rfl

theorem channelPart_absent (s : State) (c : Chan) {n : Nat} (h : 2 ≤ n) : s.channelPart c n = none := by
  obtain ⟨m, rfl⟩ := Nat.exists_eq_add_of_le' h
  rfl

/-- Settles O26: the answers, then each part's bytes, then their lengths. -/
theorem statusReportsItsParts : Obligations.StatusReportsItsParts := by
  refine ⟨fun tag p s hs => ?_, fun tag p c s hs => ?_, fun tag n p s hs hn => ?_, fun s c => ?_, fun s haux => ?_⟩
  · have hp : (p.toNat = 0) = (p = 0) := by rw [BitVec.toNat_eq]; rfl
    refine (status_owner tag 0 p hs).trans ?_
    rw [show (0 : Byte).toNat = 0 from rfl]
    cases h : s.devicePart p.toNat with
    | none => rw [ownStatus_device_absent h]; rfl
    | some b => rw [ownStatus_device h]; simp only [hp]
  · refine (status_owner tag (chanByte c) p hs).trans ?_
    rw [chanByte_toNat]
    cases h : s.channelPart c p.toNat with
    | none => rw [ownStatus_channel_absent h]; rfl
    | some b => rw [ownStatus_channel h]
  · refine (status_owner tag n p hs).trans ?_
    rw [ownStatus_no_channel hn]
    rfl
  · refine ⟨Config.freeByte s.fresh, ?_⟩
    intro k b w2 w4 bit absent chan3 latest safe cause
    have hlatest : ∀ r i, resultBytes r (Config.freeByte s.fresh i) (Config.freeByte s.fresh (i + 1)) = latest r i := by
      intro r i
      cases r <;> rfl
    have hcause : ∀ x, byte (TripCause.code x) = cause x := by intro x; cases x <;> rfl
    have hsafe : ∀ x, byte (SafeState.code x) = safe x := by intro x; cases x <;> rfl
    refine ⟨?_, ?_, ?_, ?_, ?_⟩
    · refine congrArg some ?_
      unfold State.devicePart0
      cases s.sup.expected <;> cases s.sup.heartbeat <;> rfl
    · refine congrArg some ?_
      unfold State.devicePart1 Scheduler.activityBytes Scheduler.firstBytes
      cases s.sched.conv <;> cases s.sched.timeline <;> rfl
    · refine congrArg some ?_
      rw [← hlatest, ← hlatest, ← hlatest, ← hlatest]
      rfl
    · refine congrArg some ?_
      have htrip : tripBytes k.trip (Config.freeByte s.fresh) =
          (match k.trip with
            | some r => [cause r.first] ++ w2 r.seq.toNat ++ [r.further]
            | none => [0, Config.freeByte s.fresh 0, Config.freeByte s.fresh 1, 0]) := by
        cases k.trip with
        | none => rfl
        | some r => simp only [tripBytes, le1_toNat, ← hcause]; rfl
      have hk : s.chan c = k := rfl
      clear_value k
      simp only [State.channelPart0, hk, currentBytes, List.append_assoc, le1, hsafe, htrip]
      cases k.safe with
      | none => cases k.rb.curSeq <;> rfl
      | some x => simp only [hsafe]; cases k.rb.curSeq <;> rfl
    · refine congrArg some ?_
      have hkind : kindBytes k =
          (match k.active.kind with
            | .vector =>
              w2 k.vm.amp ++ w4 (BitVec.ofInt 32 k.vm.rate).toNat ++ w2 (k.vm.acc / 65536) ++ w2 (k.vm.acc % 65536) ++
                w2 k.vm.age
            | .step =>
              [b k.sq.index, match k.sq.dir with | .forward => 0 | .reverse => 1, b k.sq.seg] ++ w2 k.sq.t60 ++
                [b k.sq.p, b k.sq.miss, b k.sq.qualified]) := by
        unfold kindBytes
        cases k.active.kind with
        | vector => rfl
        | step => cases k.sq.dir <;> rfl
      simp only [State.channelPart1, outstanding_eq]
      rw [show kindBytes (s.chan c) = _ from hkind]
      rfl
  · refine ⟨congrArg some (length_devicePart0 s), congrArg some (length_devicePart1 haux), congrArg some (length_devicePart2 s),
      fun n => devicePart_absent s, fun c => ⟨congrArg some (length_channelPart0 s c), ?_, fun n => channelPart_absent s c⟩⟩
    refine congrArg some ((length_channelPart1 s c).trans ?_)
    unfold kindBytes
    cases (s.chan c).active.kind <;> rfl

end Sys2Proof.Motor

/-!
The vector side of the manual: the duties and compares of a plan (ch.3), the edge placer with its stretch rule, windows and sample requests
(ch.4), VECTOR_SET, and the ranges of modulators and setpoints over every command.
-/

namespace Sys2Proof.Modulation

open Sys2Proof Sys2Proof.Machine Sys2Proof.Motor

/-! ### Duties (R46, R48 to R50) -/

theorem limitDuty_cast (d : Int) : (limitDuty d : Int) = max 0 (min 65536 d) := Int.toNat_of_nonneg (le_max_left _ _)

theorem limitDuty_le (d : Int) : limitDuty d ≤ 65536 := by
  have h := limitDuty_cast d
  omega

/-- One third of a revolution back is two thirds on (R46). -/
theorem phaseAngle_v (nU : Nat) : phaseAngle nU .v = (nU + 2048) % 3072 := by
  simp only [phaseAngle]
  omega

theorem get_vectorDuties (nU amp : Nat) (x : Phase) :
    (vectorDuties nU amp).get x =
      limitDuty (32768 + phaseVoltage amp (phaseAngle nU x) +
        zeroSequence (phaseVoltage amp (phaseAngle nU .u)) (phaseVoltage amp (phaseAngle nU .v))
          (phaseVoltage amp (phaseAngle nU .w))) := by
  cases x <;> simp only [vectorDuties, PerPhase.get]

theorem get_vectorDuties_le (nU amp : Nat) (x : Phase) : (vectorDuties nU amp).get x ≤ 65536 := by
  rw [get_vectorDuties]
  exact limitDuty_le _

/-! ### Compares and dither (R51, R52) -/

theorem phaseCompare_c (h duty i : Nat) :
    (phaseCompare h duty i).c =
      compare16 h duty / 16 + if bitrev4 i < compare16 h duty % 16 then 1 else 0 := rfl

theorem compare16_le (h duty : Nat) : compare16 h duty ≤ 16 * h := by
  have hmul : h * (65536 - duty) ≤ h * 65536 := Nat.mul_le_mul_left h (Nat.sub_le _ _)
  unfold compare16
  omega

theorem compare16_anti (h : Nat) {d1 d2 : Nat} (hd : d1 ≤ d2) : compare16 h d2 ≤ compare16 h d1 :=
  Nat.div_le_div_right (Nat.mul_le_mul_left h (Nat.sub_le_sub_left hd _))

/-- The extra tick of the dither falls only on a compare value below H (R52). -/
theorem phaseCompare_c_le (h duty i : Nat) : (phaseCompare h duty i).c ≤ h := by
  have h16 := compare16_le h duty
  rw [phaseCompare_c]
  split_ifs <;> omega

theorem bitrev4_eq_getD {i : Nat} (hi : i < 16) :
    bitrev4 i = [0, 8, 4, 12, 2, 10, 6, 14, 1, 9, 5, 13, 3, 11, 7, 15].getD i 0 := by
  have all : ∀ i : Fin 16, bitrev4 i = [0, 8, 4, 12, 2, 10, 6, 14, 1, 9, 5, 13, 3, 11, 7, 15].getD i 0 := by decide
  exact all ⟨i, hi⟩

/-- Of the sixteen reversed indices, r lie below r. -/
theorem sum_extraTicks {r : Nat} (hr : r < 16) : ((List.range 16).map (fun i => if bitrev4 i < r then 1 else 0)).sum = r := by
  have all : ∀ r : Fin 16, ((List.range 16).map (fun i => if bitrev4 i < r then 1 else 0)).sum = (r : Nat) := by decide
  exact all ⟨r, hr⟩

theorem sum_phaseCompare (h duty : Nat) :
    ((List.range 16).map (fun i => (phaseCompare h duty i).c)).sum = compare16 h duty := by
  have extra := sum_extraTicks (Nat.mod_lt (compare16 h duty) (show 0 < 16 by decide))
  simp only [phaseCompare_c, List.sum_map_add, extra, List.map_const', List.length_range, List.sum_replicate, smul_eq_mul]
  exact Nat.div_add_mod _ _

/-- Settles O17, clause by clause. -/
theorem comparesFollowDutyAndDither : Obligations.ComparesFollowDutyAndDither := by
  refine ⟨?_, ?_, get_vectorDuties_le, phaseCompare_c_le,
    fun h d1 d2 => compare16_anti h, sum_phaseCompare⟩
  · intro nU amp n v z x
    have angle : ∀ y, phaseAngle nU y = n y := by
      intro y
      cases y with
      | u => rfl
      | v => exact phaseAngle_v nU
      | w => rfl
    rw [get_vectorDuties, limitDuty_cast, angle, angle, angle, angle]
    rfl
  · intro h duty i hi c16 reversed
    rw [show reversed.getD i 0 = bitrev4 i from (bitrev4_eq_getD hi).symm]
    rfl

/-! ### The sort (R59) -/

/-- The place of a phase in the order U, V, W, by which equal compares are sorted. -/
def placeOf : Phase → Nat
  | .u => 0
  | .v => 1
  | .w => 2

theorem placeOf_lt (x : Phase) : placeOf x < 3 := by cases x <;> decide

theorem placeOf_inj {x y : Phase} : placeOf x = placeOf y ↔ x = y := by cases x <;> cases y <;> decide

/-- The phases f, m, l stand in ascending order of their values, equal values in the order U, V, W. -/
structure Sorted (val : Phase → Nat) (f m l : Phase) : Prop where
  first_ne_middle : f ≠ m
  first_ne_last : f ≠ l
  middle_ne_last : m ≠ l
  first_le : val f ≤ val m
  middle_le : val m ≤ val l
  first_tie : val f = val m → placeOf f < placeOf m
  middle_tie : val m = val l → placeOf m < placeOf l

theorem sortPhases_sorted (val : Phase → Nat) :
    Sorted val (sortPhases (val .u) (val .v) (val .w)).1 (sortPhases (val .u) (val .v) (val .w)).2.1
      (sortPhases (val .u) (val .v) (val .w)).2.2 := by
  have hu : placeOf .u = 0 := rfl
  have hv : placeOf .v = 1 := rfl
  have hw : placeOf .w = 2 := rfl
  unfold sortPhases
  split_ifs <;> refine ⟨by decide, by decide, by decide, ?_, ?_, ?_, ?_⟩ <;> dsimp only <;> omega

/-- Every phase has one of the three places. -/
theorem Sorted.cases {val : Phase → Nat} {f m l : Phase} (h : Sorted val f m l) (x : Phase) : x = f ∨ x = m ∨ x = l := by
  obtain ⟨hfm, hfl, hml, _⟩ := h
  have hx := placeOf_lt x
  have hf := placeOf_lt f
  have hm := placeOf_lt m
  have hl := placeOf_lt l
  rw [ne_eq, ← placeOf_inj] at hfm hfl hml
  rw [← placeOf_inj, ← placeOf_inj, ← placeOf_inj]
  omega

/-! ### The stretch rule (R61) -/

theorem stretchFirst_cast (h w cf cm : Nat) :
    (stretchFirst h w cf cm : Int) = max (min (cf : Int) ((cm : Int) - w)) (max 0 (2 * (cf : Int) - h)) := by
  unfold stretchFirst
  omega

theorem stretchFirst_le {h cf : Nat} (w cm : Nat) (hcf : cf ≤ h) : stretchFirst h w cf cm ≤ cf := by
  unfold stretchFirst
  omega

theorem two_mul_le_stretchFirst_add (h w cf cm : Nat) : 2 * cf ≤ stretchFirst h w cf cm + h := by
  unfold stretchFirst
  omega

theorem le_stretchLast {h cl : Nat} (w cm : Nat) (hcl : cl ≤ h) : cl ≤ stretchLast h w cl cm := by
  unfold stretchLast
  omega

theorem stretchLast_le (h w cl cm : Nat) : stretchLast h w cl cm ≤ min h (2 * cl) := min_le_right _ _

/-! ### The placed plan (R59 to R62) -/

theorem get_set_three {α : Type} {f m l : Phase} (p : PerPhase α) (a b c : α) (hfm : f ≠ m) (hfl : f ≠ l) (hml : m ≠ l) :
    (((p.set f a).set m b).set l c).get f = a ∧ (((p.set f a).set m b).set l c).get m = b ∧
      (((p.set f a).set m b).set l c).get l = c := by
  simp [PerPhase.get_set, hfm, hfl, hml]

/-- What the edge placer makes of a plan's compares: their order, and up- and down-compares by the stretch rule. -/
structure Placed (cfg : ConfigRecord) (h : Nat) (p : VectorPlan) : Prop where
  sorted : Sorted (fun x => (p.cmp.get x).c) p.first p.middle p.last
  le : ∀ x, (p.cmp.get x).c ≤ h
  up_first : p.up.get p.first =
    if cfg.stretch then stretchFirst h cfg.window (p.cmp.get p.first).c (p.cmp.get p.middle).c else (p.cmp.get p.first).c
  up_middle : p.up.get p.middle = (p.cmp.get p.middle).c
  up_last : p.up.get p.last =
    if cfg.stretch then stretchLast h cfg.window (p.cmp.get p.last).c (p.cmp.get p.middle).c else (p.cmp.get p.last).c
  dn_first : p.dn.get p.first = 2 * (p.cmp.get p.first).c - p.up.get p.first
  dn_middle : p.dn.get p.middle = (p.cmp.get p.middle).c
  dn_last : p.dn.get p.last = 2 * (p.cmp.get p.last).c - p.up.get p.last
  winA : p.winA = (p.cmp.get p.middle).c - p.up.get p.first
  winB : p.winB = p.up.get p.last - (p.cmp.get p.middle).c
  stretchedFirst : p.stretchedFirst = decide (p.up.get p.first < (p.cmp.get p.first).c)
  stretchedLast : p.stretchedLast = decide ((p.cmp.get p.last).c < p.up.get p.last)
  shortA : p.shortA = (decide (p.winA < cfg.window) || decide ((p.cmp.get p.middle).c < cfg.lead))
  shortB : p.shortB = (decide (p.winB < cfg.window) || decide (p.up.get p.last < cfg.lead))

theorem get_cmp_vectorPlan (cfg : ConfigRecord) (h acc amp dither : Nat) (x : Phase) :
    (vectorPlan cfg h acc amp dither).cmp.get x = phaseCompare h ((vectorPlan cfg h acc amp dither).duty.get x) dither := by
  cases x <;> rfl

theorem placed_vectorPlan (cfg : ConfigRecord) (h acc amp dither : Nat) : Placed cfg h (vectorPlan cfg h acc amp dither) := by
  let p := vectorPlan cfg h acc amp dither
  change Placed cfg h p
  have sorted : Sorted (fun x => (p.cmp.get x).c) p.first p.middle p.last := sortPhases_sorted fun x => (p.cmp.get x).c
  have three := fun a b c => get_set_three (⟨0, 0, 0⟩ : PerPhase Nat) a b c sorted.first_ne_middle sorted.first_ne_last
    sorted.middle_ne_last
  have upF : p.up.get p.first = _ := (three _ _ _).1
  have upL : p.up.get p.last = _ := (three _ _ _).2.2
  constructor
  case sorted => exact sorted
  case le =>
    intro x
    rw [get_cmp_vectorPlan]
    exact phaseCompare_c_le _ _ _
  case up_first => exact upF
  case up_middle => exact (three _ _ _).2.1
  case up_last => exact upL
  case dn_first => rw [upF]; exact (three _ _ _).1
  case dn_middle => exact (three _ _ _).2.1
  case dn_last => rw [upL]; exact (three _ _ _).2.2
  case winA => rw [upF]; rfl
  case winB => rw [upL]; rfl
  case stretchedFirst => rw [upF]; rfl
  case stretchedLast => rw [upL]; rfl
  case shortA => rfl
  case shortB => rw [upL]; rfl

section
variable {cfg : ConfigRecord} {h : Nat} {p : VectorPlan}

theorem Placed.up_first_le (hp : Placed cfg h p) : p.up.get p.first ≤ (p.cmp.get p.first).c := by
  rw [hp.up_first]
  split_ifs
  · exact stretchFirst_le _ _ (hp.le _)
  · exact le_rfl

theorem Placed.dn_first_bound (hp : Placed cfg h p) : 2 * (p.cmp.get p.first).c ≤ p.up.get p.first + h := by
  have hle := hp.le p.first
  rw [hp.up_first]
  split_ifs
  · exact two_mul_le_stretchFirst_add _ _ _ _
  · omega

theorem Placed.le_up_last (hp : Placed cfg h p) : (p.cmp.get p.last).c ≤ p.up.get p.last := by
  rw [hp.up_last]
  split_ifs
  · exact le_stretchLast _ _ (hp.le _)
  · exact le_rfl

theorem Placed.up_last_bound (hp : Placed cfg h p) : p.up.get p.last ≤ min h (2 * (p.cmp.get p.last).c) := by
  have hle := hp.le p.last
  rw [hp.up_last]
  split_ifs
  · exact stretchLast_le _ _ _ _
  · omega

/-- The two edges of a phase keep its on-time: they lie as far apart as without stretch (R61). -/
theorem Placed.pair (hp : Placed cfg h p) (x : Phase) :
    p.up.get x + p.dn.get x = 2 * (p.cmp.get x).c ∧ p.up.get x ≤ h ∧ p.dn.get x ≤ h := by
  have hle := hp.le x
  rcases hp.sorted.cases x with rfl | rfl | rfl
  · have upper := hp.up_first_le
    have lower := hp.dn_first_bound
    rw [hp.dn_first]
    omega
  · rw [hp.up_middle, hp.dn_middle]
    omega
  · have lower := hp.le_up_last
    have upper := hp.up_last_bound
    rw [hp.dn_last]
    omega

theorem Placed.unstretched (hp : Placed cfg h p) (hs : cfg.stretch = false) (x : Phase) :
    p.up.get x = (p.cmp.get x).c ∧ p.dn.get x = (p.cmp.get x).c := by
  have sum := (hp.pair x).1
  have up : p.up.get x = (p.cmp.get x).c := by
    rcases hp.sorted.cases x with rfl | rfl | rfl
    · rw [hp.up_first, hs]; rfl
    · exact hp.up_middle
    · rw [hp.up_last, hs]; rfl
  omega

theorem Placed.stretched (hp : Placed cfg h p) (hs : cfg.stretch = true) :
    (p.up.get p.first : Int) =
        max (min ((p.cmp.get p.first).c : Int) (((p.cmp.get p.middle).c : Int) - cfg.window))
          (max 0 (2 * ((p.cmp.get p.first).c : Int) - h)) ∧
      p.up.get p.last =
        min (max (p.cmp.get p.last).c ((p.cmp.get p.middle).c + cfg.window)) (min h (2 * (p.cmp.get p.last).c)) ∧
      p.up.get p.middle = (p.cmp.get p.middle).c := by
  refine ⟨?_, ?_, hp.up_middle⟩
  · rw [hp.up_first, if_pos hs, stretchFirst_cast]
  · rw [hp.up_last, if_pos hs]
    rfl

end

/-! ### Requests of the plans (R71 to R73) -/

/-- The step plan in the words of R72, whose bounds are differences of H. -/
theorem makeStepPlan_eq (cfg : ConfigRecord) {h : Nat} (d index duty : Nat) (sensing : Bool) (seq : Seq) (hh : 82 ≤ h) :
    makeStepPlan cfg h d index duty sensing seq =
      let cmp := phaseCompare h (min duty cfg.ceiling) (seq.toNat % 16)
      { seq := seq
        body :=
          .step
            { index := index
              duty := min duty cfg.ceiling
              dither := seq.toNat % 16
              cmp := cmp
              shortA := decide (¬cmp.c + d ≤ h - 82)
              senseShort := decide (sensing = true ∧ h < cmp.c + 30) }
        requests :=
          (if cmp.c + d ≤ h - 82 then
            [{ purpose := .shuntA, due := h - 82, tol := min (cfg.lead - 20) (min 80 (h - 82 - (cmp.c + d))) }]
            else []) ++
          (if sensing = true ∧ cmp.c + 30 ≤ h then
            [{ purpose := .sense, due := h - 10, tol := min cfg.senseTol (h - cmp.c - 30) }] else []) } := by
  have room : ∀ n, h < n + d + 82 ↔ ¬n + d ≤ h - 82 := by
    intro n
    omega
  by_cases hs : (phaseCompare h (min duty cfg.ceiling) (seq.toNat % 16)).c + d ≤ h - 82 <;>
    cases sensing <;> simp [makeStepPlan, room, hs]

/-- Settles O18: the placed plan's facts, then the three kinds of plan. -/
theorem stretchMovesOuterEdgesOnly : Obligations.StretchMovesOuterEdgesOnly := by
  refine ⟨?_, fun cfg h vm seq => rfl, ?_, fun cfg h seq => rfl⟩
  · intro cfg h acc amp dither p cf cm cl
    have hp : Placed cfg h p := placed_vectorPlan cfg h acc amp dither
    have upF := hp.up_first_le
    have upL := hp.le_up_last
    have firstLe := hp.sorted.first_le
    have lastLe := hp.sorted.middle_le
    have pairF := hp.pair p.first
    have pairL := hp.pair p.last
    refine ⟨hp.unstretched, hp.stretched, hp.pair, ?_, ?_, firstLe, lastLe, ?_, ?_, ?_, ?_, ?_, rfl, rfl, rfl, rfl, rfl,
      get_cmp_vectorPlan cfg h acc amp dither, ?_, ?_, ?_, ?_⟩
    · rw [hp.stretchedFirst, decide_eq_true_iff]
    · rw [hp.stretchedLast, decide_eq_true_iff]
    · show (p.cmp.get p.first).c ≤ _
      omega
    · show _ ≤ (p.cmp.get p.last).c
      omega
    · rw [hp.up_middle]; omega
    · rw [hp.up_middle]; omega
    · exact ⟨hp.sorted.first_ne_middle, hp.sorted.first_ne_last, hp.sorted.middle_ne_last, hp.sorted.first_tie,
        hp.sorted.middle_tie⟩
    · rw [hp.winA]; omega
    · rw [hp.winB]; omega
    · rw [hp.shortA, Bool.or_eq_true, decide_eq_true_iff, decide_eq_true_iff]
    · rw [hp.shortB, Bool.or_eq_true, decide_eq_true_iff, decide_eq_true_iff]
  · intro cfg h d index duty sensing seq hh
    exact makeStepPlan_eq cfg d index duty sensing seq hh

/-! ### VECTOR_SET (R42) -/

/-- The limit of a rate, by the two sides that it may lie beyond. -/
theorem clampRate_eq (w : Int) :
    clampRate w = if 33554432 < w then 33554432 else if w < -33554432 then -33554432 else w := by
  unfold clampRate maxRate
  split_ifs <;> omega

theorem clampRate_ne_iff (w : Int) : clampRate w ≠ w ↔ 33554432 < w ∨ w < -33554432 := by
  unfold clampRate maxRate
  omega

theorem min_maxAmp_eq (a : Nat) : min maxAmp a = if 37837 < a then 37837 else a := by
  unfold maxAmp
  split_ifs <;> omega

theorem min_maxAmp_ne_iff (a : Nat) : min maxAmp a ≠ a ↔ 37837 < a := by
  unfold maxAmp
  omega

/-- A setpoint that enters the slot of a channel, with the superseded count by the slot's old contents (R34). -/
theorem store_eq (k : Channel) (x : Setpoint) :
    k.store x =
      { k with
        slot := some x
        superseded := if k.slot = none then k.superseded else min 65535 (k.superseded + 1) } := by
  unfold Channel.store
  cases k.slot <;> rfl

theorem vectorSet_owner (tag : Byte) {p : List Byte} {f : VectorFields} {s : State} (hs : s.takes) (hp : readVectorSet p = some f) :
    exec (.vectorSet tag p) s = .next ((ownVectorSet f s).1.replied 0x26 tag (ownVectorSet f s).2) := by
  rw [← takeRequest_taken _ _ false _ _ _ hs, ← hp]
  rfl

theorem ownVectorSet_unconfigured {s : State} {c : Chan} (a : Nat) (w : Int) (θ : Option Nat)
    (hst : (s.chan c).state = .unconfigured) : ownVectorSet ⟨chanCode c, a, w, θ⟩ s = (s, wrongState) := by
  simp [ownVectorSet, hst]

theorem ownVectorSet_step {s : State} {c : Chan} (a : Nat) (w : Int) (θ : Option Nat) (hst : (s.chan c).state ≠ .unconfigured)
    (hk : (s.chan c).active.kind = .step) : ownVectorSet ⟨chanCode c, a, w, θ⟩ s = (s, conflict c) := by
  simp [ownVectorSet, hst, hk]

/-- An accepted VECTOR_SET, in the words of R42. -/
theorem ownVectorSet_accepted {s : State} {c : Chan} (a : Nat) (w : Int) (θ : Option Nat) (hst : (s.chan c).state ≠ .unconfigured)
    (hk : (s.chan c).active.kind ≠ .step) :
    ownVectorSet ⟨chanCode c, a, w, θ⟩ s =
      (s.modCh c (fun k =>
        { k with
          slot :=
            some (.vector (if 37837 < a then 37837 else a)
              (if 33554432 < w then 33554432 else if w < -33554432 then -33554432 else w) (θ.map (fun n => n % 3072)))
          superseded := if k.slot = none then k.superseded else min 65535 (k.superseded + 1) }),
        { code := if 37837 < a ∨ 33554432 < w ∨ w < -33554432 then .clamped else .ok }) := by
  have limited : (min maxAmp a != a || clampRate w != w) = decide (37837 < a ∨ 33554432 < w ∨ w < -33554432) := by
    rw [Bool.eq_iff_iff, Bool.or_eq_true, bne_iff_ne, bne_iff_ne, min_maxAmp_ne_iff, clampRate_ne_iff, decide_eq_true_eq]
  simp only [ownVectorSet, onChannel_chanCode, hst, hk, if_false, limited, setpointAnswer, decide_eq_true_eq]
  simp only [store_eq, min_maxAmp_eq, clampRate_eq]

/-- Settles O40, by R42's checks in order. -/
theorem vectorSetStoresTheLimitedSetpoint : Obligations.VectorSetStoresTheLimitedSetpoint := by
  refine ⟨fun tag p c a w θ s hs hp => ?_, fun tag p f s hs hp hf => ?_⟩
  · rw [vectorSet_owner tag hs hp]
    by_cases hst : (s.chan c).state = .unconfigured
    · rw [if_pos hst, ownVectorSet_unconfigured _ _ _ hst]
      rfl
    rw [if_neg hst]
    by_cases hk : (s.chan c).active.kind = .step
    · rw [if_pos hk, ownVectorSet_step _ _ _ hst hk]
      rfl
    rw [if_neg hk, ownVectorSet_accepted a w θ hst hk]
  · rw [vectorSet_owner tag hs hp, show ownVectorSet f s = _ from onChannel_none hf _ _]
    rfl

/-! ### Modulators and setpoint slots: what leaves them alone -/

/-- Modulator and setpoint slot of every channel. -/
def setpoints (ch : PerChan Channel) (c : Chan) : VectorMod × Option Setpoint := ((ch.get c).vm, (ch.get c).slot)

theorem setpoints_map (f : Channel → Channel) (hv : ∀ k, (f k).vm = k.vm) (hs : ∀ k, (f k).slot = k.slot) (p : PerChan Channel) :
    setpoints (p.map f) = setpoints p := by
  funext c
  simp [setpoints, hv, hs]

@[simp] theorem setpoints_modCh {s : State} {c : Chan} {f : Channel → Channel} (hv : (f (s.chan c)).vm = (s.chan c).vm)
    (hs : (f (s.chan c)).slot = (s.chan c).slot) : setpoints (s.modCh c f).ch = setpoints s.ch := by
  funext x
  have h := s.chan_modCh c x f
  unfold State.chan at h
  unfold setpoints
  rw [h]
  split
  next hx =>
    subst hx
    exact Prod.ext hv hs
  next => rfl

@[simp] theorem setpoints_modSq (s : State) (c : Chan) (f : StepSeq → StepSeq) : setpoints (s.modSq c f).ch = setpoints s.ch :=
  setpoints_modCh rfl rfl

@[simp] theorem setpoints_modRb (s : State) (c : Chan) (f : Rebuilder → Rebuilder) :
    setpoints (s.modRb c f).ch = setpoints s.ch := setpoints_modCh rfl rfl

@[simp] theorem setpoints_modGates (s : State) (c : Chan) (f : Gates → Gates) : setpoints (s.modGates c f).ch = setpoints s.ch :=
  setpoints_modCh rfl rfl

theorem setpoints_foldl {α : Type} {f : State → α → State} (hf : ∀ s a, setpoints (f s a).ch = setpoints s.ch) (l : List α)
    (s : State) : setpoints (l.foldl f s).ch = setpoints s.ch := by
  induction l generalizing s with
  | nil => rfl
  | cons a l ih => exact (ih _).trans (hf s a)

/-! Time. -/

@[simp] theorem setpoints_elapse (s : State) (n : Nat) : setpoints (s.elapse n).ch = setpoints s.ch := by
  funext c
  unfold setpoints
  rcases s.chan_elapse n c with h | h <;> unfold State.chan at h <;> rw [h]
  rfl

@[simp] theorem setpoints_waitUntil (s : State) (t : Time) : setpoints (s.waitUntil t).ch = setpoints s.ch := by
  rcases s.waitUntil_cases t with ⟨_, h⟩ | ⟨_, h⟩ <;> rw [h]
  exact setpoints_elapse _ _

/-! The ends of a run and the trip causes. -/

@[simp] theorem setpoints_flushChan (s : State) (c : Chan) : setpoints (s.flushChan c).ch = setpoints s.ch :=
  setpoints_modCh rfl rfl

@[simp] theorem setpoints_flushAll (s : State) : setpoints s.flushAll.ch = setpoints s.ch := by
  funext c
  cases c <;> rfl

@[simp] theorem setpoints_endRun (s : State) (c : Chan) : setpoints (s.endRun c).ch = setpoints s.ch := by simp [State.endRun]

@[simp] theorem setpoints_toStopped (s : State) (c : Chan) : setpoints (s.toStopped c).ch = setpoints s.ch := by
  simp [State.toStopped]

@[simp] theorem setpoints_toBraking (s : State) (c : Chan) : setpoints (s.toBraking c).ch = setpoints s.ch := by
  simp [State.toBraking]

@[simp] theorem setpoints_calFailed (s : State) (c : Chan) (f : CalFailure) : setpoints (s.calFailed c f).ch = setpoints s.ch := by
  simp [State.calFailed]

@[simp] theorem setpoints_enterTripped (s : State) (c : Chan) (k : TripCause) :
    setpoints (s.enterTripped c k).ch = setpoints s.ch := by simp [State.enterTripped]

@[simp] theorem setpoints_reachCause (s : State) (c : Chan) (k : TripCause) :
    setpoints (s.reachCause c k).ch = setpoints s.ch := by
  rcases s.reachCause_cases c k with ⟨_, h⟩ | ⟨_, h⟩ | ⟨_, _, h⟩ | ⟨_, _, _, h⟩ <;> simp [h]

@[simp] theorem setpoints_sendCause (s : State) (k : TripCause) (who : ChanState → Bool) :
    setpoints (s.sendCause k who).ch = setpoints s.ch := by
  refine setpoints_foldl (fun a c => ?_) _ _
  split <;> simp

@[simp] theorem setpoints_faultAsserted (s : State) (c : Chan) : setpoints (s.faultAsserted c).ch = setpoints s.ch := by
  simp [State.faultAsserted]

@[simp] theorem setpoints_sampleFaults (s : State) : setpoints s.sampleFaults.ch = setpoints s.ch := by
  refine setpoints_foldl (f := fun a c => if a.prot.pins.get c then a.faultAsserted c else a) (fun a c => ?_) _ _
  split <;> simp

@[simp] theorem setpoints_carrierRestart (s : State) : setpoints s.carrierRestart.ch = setpoints s.ch :=
  setpoints_map (·.restart s.tb.now) (fun _ => rfl) (fun _ => rfl) _

/-! The close of a period. -/

@[simp] theorem setpoints_emitReport (s : State) (c : Chan) (w : WorkRecord) : setpoints (s.emitReport c w).ch = setpoints s.ch := by
  simp [State.emitReport]

@[simp] theorem setpoints_reportStep (s : State) (c : Chan) (w : WorkRecord) :
    setpoints (s.reportStep c w).ch = setpoints s.ch := by
  simp only [State.reportStep]
  split_ifs <;> simp

@[simp] theorem setpoints_limitStep (s : State) (c : Chan) (n : Nat) : setpoints (s.limitStep c n).ch = setpoints s.ch := by
  simp only [State.limitStep]
  split_ifs <;> simp

@[simp] theorem setpoints_closePeriod (s : State) (c : Chan) : setpoints (s.closePeriod c).ch = setpoints s.ch := by
  unfold State.closePeriod
  split <;> simp [State.formStep]

/-! The step sequencer. -/

@[simp] theorem setpoints_setCompare (s : State) (c : Chan) (due : Time) (kind : CompareKind) :
    setpoints (s.setCompare c due kind).ch = setpoints s.ch := setpoints_modSq _ _ _

@[simp] theorem setpoints_runBegins (s : State) (c : Chan) (t : Time) : setpoints (s.runBegins c t).ch = setpoints s.ch := by
  simp only [State.runBegins]
  split <;> simp

@[simp] theorem setpoints_commutate (s : State) (c : Chan) (t : Time) (peak : Bool) :
    setpoints (s.commutate c t peak).ch = setpoints s.ch := setpoints_modCh rfl rfl

@[simp] theorem setpoints_enterSegment (s : State) (c : Chan) (i : Nat) (t : Time) :
    setpoints (s.enterSegment c i t).ch = setpoints s.ch := by
  simp only [State.enterSegment]
  split <;> simp

@[simp] theorem setpoints_advanceRun (s : State) (c : Chan) (t : Time) (peak : Bool) :
    setpoints (s.advanceRun c t peak).ch = setpoints s.ch := by
  simp only [State.advanceRun, State.startFailed]
  split_ifs <;> simp

@[simp] theorem setpoints_lostSyncStep (s : State) (c : Chan) : setpoints (s.lostSyncStep c).ch = setpoints s.ch := by
  simp only [State.lostSyncStep]
  split_ifs <;> simp

@[simp] theorem setpoints_closedCommutation (s : State) (c : Chan) (t : Time) (peak : Bool) (kind : CompareKind) :
    setpoints (s.closedCommutation c t peak kind).ch = setpoints s.ch := by
  simp only [State.closedCommutation]
  split_ifs <;> simp

@[simp] theorem setpoints_applyCompare (s : State) (c : Chan) (t : Time) (peak : Bool) :
    setpoints (s.applyCompare c t peak).ch = setpoints s.ch := by
  simp only [State.applyCompare]
  split
  · rfl
  · split
    · split <;> simp
    · rfl

@[simp] theorem setpoints_handOver (s : State) (c : Chan) (tzc : Time) (delta : Nat) :
    setpoints (s.handOver c tzc delta).ch = setpoints s.ch := by
  unfold State.handOver
  split <;> simp

@[simp] theorem setpoints_crossingFound (s : State) (c : Chan) (tzc : Time) :
    setpoints (s.crossingFound c tzc).ch = setpoints s.ch := setpoints_modSq _ _ _

@[simp] theorem setpoints_rampCrossing (s : State) (c : Chan) (tzc : Time) (early : Bool) :
    setpoints (s.rampCrossing c tzc early).ch = setpoints s.ch := by
  simp only [State.rampCrossing]
  split_ifs <;> simp

@[simp] theorem setpoints_closedCrossing (s : State) (c : Chan) (tzc : Time) :
    setpoints (s.closedCrossing c tzc).ch = setpoints s.ch := by simp [State.closedCrossing]

@[simp] theorem setpoints_classify (s : State) (c : Chan) (start : Time) (d : Int) :
    setpoints (s.classify c start d).ch = setpoints s.ch := by
  simp only [State.classify]
  split_ifs <;> simp

@[simp] theorem setpoints_senseResult (s : State) (c : Chan) (seq : Seq) (raw : Nat) (start : Time) (input floatInput : Nat) :
    setpoints (s.senseResult c seq raw start input floatInput).ch = setpoints s.ch := by
  simp only [State.senseResult]
  split
  · split
    · rfl
    · split <;> simp
  · rfl

/-! The monitor and supervision. -/

@[simp] theorem setpoints_examineBus (s : State) (raw : Nat) : setpoints (s.examineBus raw).ch = setpoints s.ch := by
  simp only [State.examineBus]
  split <;> simp

@[simp] theorem setpoints_examineTemp (s : State) (raw : Nat) : setpoints (s.examineTemp raw).ch = setpoints s.ch := by
  simp only [State.examineTemp]
  split_ifs <;> simp

@[simp] theorem setpoints_auxResult (s : State) (a : AuxSource) (raw merged : Nat) :
    setpoints (s.auxResult a raw merged).ch = setpoints s.ch := by
  cases a <;> simp [State.auxResult]

@[simp] theorem setpoints_busStaleStep (s : State) : setpoints s.busStaleStep.ch = setpoints s.ch := by
  unfold State.busStaleStep
  split <;> simp

@[simp] theorem setpoints_staleCountStep (s : State) : setpoints s.staleCountStep.ch = setpoints s.ch := by
  unfold State.staleCountStep
  split <;> simp

@[simp] theorem setpoints_masterWork (s : State) : setpoints s.masterWork.ch = setpoints s.ch := by simp [State.masterWork]

@[simp] theorem setpoints_supervisionTrip (s : State) (k : SupTrip) : setpoints (s.supervisionTrip k).ch = setpoints s.ch := by
  simp [State.supervisionTrip]

@[simp] theorem setpoints_expiryStep (s : State) : setpoints s.expiryStep.ch = setpoints s.ch := by
  unfold State.expiryStep
  split_ifs <;> simp

@[simp] theorem setpoints_heartbeatStep (s : State) : setpoints s.heartbeatStep.ch = setpoints s.ch := by
  unfold State.heartbeatStep
  split
  · rfl
  · simp only
    split
    · simp
    · split
      · split <;> simp
      · simp

@[simp] theorem setpoints_slowStep (s : State) : setpoints s.slowStep.ch = setpoints s.ch := by simp [State.slowStep]

/-! Plans. -/

@[simp] theorem setpoints_insertRequest (s : State) (c : Chan) (t : Time) (seq : Seq) (r : PlanRequest) :
    setpoints (s.insertRequest c t seq r).ch = setpoints s.ch := by
  simp only [State.insertRequest]
  split
  · rfl
  · exact setpoints_modCh rfl rfl

@[simp] theorem setpoints_insertRequests (s : State) (c : Chan) (t : Time) (p : Plan) :
    setpoints (s.insertRequests c t p).ch = setpoints s.ch :=
  setpoints_foldl (fun a r => setpoints_insertRequest a c t p.seq r) _ _

@[simp] theorem setpoints_planCurrent (s : State) (c : Chan) (t : Time) : setpoints (s.planCurrent c t).ch = setpoints s.ch := by
  simp only [State.planCurrent]
  split
  · simp
  · split <;> simp

@[simp] theorem setpoints_computePlan (s : State) (c : Chan) (m : Seq) : setpoints (s.computePlan c m).ch = setpoints s.ch := by
  simp [State.computePlan]

@[simp] theorem setpoints_staleTripStep (s : State) (c : Chan) : setpoints (s.staleTripStep c).ch = setpoints s.ch := by
  simp only [State.staleTripStep]
  split_ifs <;> simp

@[simp] theorem setpoints_calTimeoutStep (s : State) (c : Chan) : setpoints (s.calTimeoutStep c).ch = setpoints s.ch := by
  simp only [State.calTimeoutStep]
  split_ifs <;> simp

@[simp] theorem setpoints_calPeriod (s : State) (c : Chan) (t : Time) (m : Seq) :
    setpoints (s.calPeriod c t m).ch = setpoints s.ch := by
  simp only [State.calPeriod]
  split_ifs <;> simp

theorem setpoints_beginPeriod (s : State) (c : Chan) (t : Time) (m : Seq) (h : Nat) :
    setpoints ((s.modCh c fun k => k.beginPeriod t m h).modCh c Channel.liveInForce).ch = setpoints s.ch := by
  have live : ∀ k : Channel, k.liveInForce.vm = k.vm ∧ k.liveInForce.slot = k.slot := by
    intro k
    unfold Channel.liveInForce
    split <;> exact ⟨rfl, rfl⟩
  refine (setpoints_modCh (live _).1 (live _).2).trans ?_
  exact setpoints_modCh rfl rfl

/-! Conversions. -/

@[simp] theorem setpoints_calDoneStep (s : State) (c : Chan) : setpoints (s.calDoneStep c).ch = setpoints s.ch := by
  simp only [State.calDoneStep]
  split_ifs <;> simp

@[simp] theorem setpoints_calResult (s : State) (c : Chan) (seq : Seq) (raw : Nat) :
    setpoints (s.calResult c seq raw).ch = setpoints s.ch := by
  simp only [State.calResult]
  split_ifs <;> simp

@[simp] theorem setpoints_channelResult (s : State) (c : Chan) (v : Conversion) (raw : Nat) :
    setpoints (s.channelResult c v raw).ch = setpoints s.ch := by
  simp only [State.channelResult]
  split <;> simp [State.shuntResult]

@[simp] theorem setpoints_completeConversion (s : State) (v : Conversion) (raw : Nat) :
    setpoints (s.completeConversion v raw).ch = setpoints s.ch := by
  simp only [State.completeConversion]
  split
  · exact (setpoints_channelResult _ _ _ _).trans (setpoints_modCh rfl rfl)
  · simp
  · rfl

@[simp] theorem setpoints_removeLate (s : State) (c : Chan) (e : Entry) : setpoints (s.removeLate c e).ch = setpoints s.ch :=
  (setpoints_modRb _ _ _).trans (setpoints_modCh rfl rfl)

/-! The device and the link. -/

@[simp] theorem setpoints_endStartUp (s : State) : setpoints s.endStartUp.ch = setpoints s.ch := by simp [State.endStartUp]

@[simp] theorem setpoints_enterQuiet (s : State) : setpoints s.enterQuiet.ch = setpoints s.ch :=
  (setpoints_map Channel.stopPeriods (fun _ => rfl) (fun _ => rfl) _).trans (setpoints_flushAll s)

@[simp] theorem setpoints_quietEntryNow (s : State) : setpoints s.quietEntryNow.ch = setpoints s.ch := by
  rcases s.quietEntryNow_cases with ⟨_, _, _, h⟩ | ⟨_, h⟩ <;> simp [h]

@[simp] theorem ch_ready (s : State) : s.ready.ch = s.ch := rfl

@[simp] theorem ch_enterGap (s : State) : s.enterGap.ch = s.ch := by
  unfold State.enterGap
  split <;> rfl

@[simp] theorem ch_linkInForce (s : State) (r : Rate) (gap : Nat) : (s.linkInForce r gap).ch = s.ch := rfl

@[simp] theorem ch_transmitAgain (s : State) : s.transmitAgain.ch = s.ch := by
  unfold State.transmitAgain
  split <;> rfl

@[simp] theorem setpoints_wakeNow (s : State) : setpoints s.wakeNow.ch = setpoints s.ch := by simp [State.wakeNow]

@[simp] theorem ch_receive (s : State) (cs : List Byte) (left : Nat) : (s.receive cs left).ch = s.ch := by
  have item : ∀ (u : State) (x : RxItem), (u.rxItem x).ch = u.ch := by
    intro u x
    unfold State.rxItem
    split
    · rfl
    · split <;> rfl
  have items : ∀ (l : List RxItem) (u : State), (l.foldl State.rxItem u).ch = u.ch := by
    intro l
    induction l with
    | nil => exact fun _ => rfl
    | cons x l ih => exact fun u => (ih _).trans (item u x)
  exact items _ _

@[simp] theorem ch_wakeBegins (s : State) (char : Byte) : (s.wakeBegins char).ch = s.ch := by
  unfold State.wakeBegins
  split <;> rfl

@[simp] theorem ch_raise (s : State) (i : Instr) (b : Bool) : (s.raise i b).ch = s.ch := by
  cases b <;> rfl

@[simp] theorem setpoints_idle (s : State) : setpoints s.idle.ch = setpoints s.ch := by
  simp only [State.idle]
  split
  · simp
  · split <;> simp

/-! Requests. -/

theorem setpoints_onChannel {n : Nat} {owner : Chan → State → State × Answer} {s : State}
    (h : ∀ c, setpoints (owner c s).1.ch = setpoints s.ch) : setpoints (onChannel n owner s).1.ch = setpoints s.ch := by
  unfold onChannel
  split
  · rfl
  · exact h _

theorem setpoints_ownSetLink (f : Nat × Nat) (s : State) : setpoints (ownSetLink f s).1.ch = setpoints s.ch := by
  unfold ownSetLink
  split
  · rfl
  · split <;> rfl

theorem setpoints_ownSleep (s : State) : setpoints (ownSleep () s).1.ch = setpoints s.ch := by
  unfold ownSleep
  split_ifs <;> rfl

theorem setpoints_ownStatus (f : Nat × Nat) (s : State) : setpoints (ownStatus f s).1.ch = setpoints s.ch := by
  simp only [ownStatus]
  split
  · split
    · rfl
    · split <;> rfl
  · split
    · rfl
    · split <;> rfl

theorem setpoints_ownRecover (s : State) : setpoints (ownRecover () s).1.ch = setpoints s.ch := by
  unfold ownRecover
  split <;> rfl

theorem setpoints_ownSupervise (f : Nat × Nat) (s : State) : setpoints (ownSupervise f s).1.ch = setpoints s.ch := by
  unfold ownSupervise
  split_ifs <;> rfl

theorem setpoints_ownHeartbeat (n : Nat) (s : State) : setpoints (ownHeartbeat n s).1.ch = setpoints s.ch := by
  unfold ownHeartbeat
  split_ifs <;> rfl

theorem setpoints_ownCarrier (f : Nat × Nat) (s : State) : setpoints (ownCarrier f s).1.ch = setpoints s.ch := by
  unfold ownCarrier
  split_ifs
  · rfl
  · rfl
  · rfl
  · split <;> simp

theorem setpoints_ownConverter (f : Levels) (s : State) : setpoints (ownConverter f s).1.ch = setpoints s.ch := by
  unfold ownConverter
  split_ifs <;> rfl

theorem setpoints_ownAuxPlan (f : Nat × List AuxFields) (s : State) : setpoints (ownAuxPlan f s).1.ch = setpoints s.ch := by
  unfold ownAuxPlan
  split
  · rfl
  · split <;> rfl

theorem setpoints_ownLimits (f : LimitFields) (s : State) : setpoints (ownLimits f s).1.ch = setpoints s.ch := by
  unfold ownLimits
  split_ifs <;> rfl

theorem setpoints_ownSetup (f : Nat × List (Nat × Nat)) (s : State) : setpoints (ownSetup f s).1.ch = setpoints s.ch := by
  refine setpoints_onChannel fun c => ?_
  split <;> simp

theorem setpoints_ownProfile (f : Nat × Nat × List SegmentFields) (s : State) :
    setpoints (ownProfile f s).1.ch = setpoints s.ch := by
  refine setpoints_onChannel fun c => ?_
  simp only
  split_ifs
  · rfl
  · rfl
  · split <;> simp

theorem setpoints_ownCalibrate (n : Nat) (s : State) : setpoints (ownCalibrate n s).1.ch = setpoints s.ch := by
  refine setpoints_onChannel fun c => ?_
  split_ifs <;> simp

theorem setpoints_ownStop (f : Nat × Nat) (s : State) : setpoints (ownStop f s).1.ch = setpoints s.ch := by
  refine setpoints_onChannel fun c => ?_
  split
  · unfold State.stopCoast
    split <;> simp
  · unfold State.stopBrake
    split <;> simp
  · rfl

/-! ### Ranges (R41, R42, R45) -/

/-- One channel's part of `State.vectorsInRange`. -/
def InRange (k : Channel) : Prop := k.vm.inRange ∧ ∀ p, k.slot = some p → p.inRange

theorem vectorsInRange_of_setpoints {s t : State} (h : setpoints t.ch = setpoints s.ch) (hs : s.vectorsInRange) :
    t.vectorsInRange := by
  intro c
  obtain ⟨hv, hslot⟩ := Prod.ext_iff.1 (congrFun h c)
  have hc := hs c
  rw [show (t.chan c).vm = (s.chan c).vm from hv, show (t.chan c).slot = (s.chan c).slot from hslot]
  exact hc

theorem vectorsInRange_modCh {s : State} {c : Chan} {f : Channel → Channel} (h : InRange (s.chan c) → InRange (f (s.chan c)))
    (hs : s.vectorsInRange) : (s.modCh c f).vectorsInRange := by
  intro x
  rw [State.chan_modCh]
  split
  next hx =>
    subst hx
    exact h (hs _)
  next => exact hs x

theorem inRange_reset : InRange Channel.reset := by
  refine ⟨?_, fun p hp => by cases hp⟩
  unfold VectorMod.inRange
  decide

theorem vectorsInRange_of_reset {t : State} (h : ChannelsReset t) : t.vectorsInRange := by
  intro c
  rw [h c]
  exact inRange_reset

/-- Age and marker bind no other value of a modulator (R41, R55). -/
theorem inRange_withAge {v : VectorMod} (age : Nat) (marker : Bool) (hage : age ≤ 4095) (h : v.inRange) :
    ({ v with age := age, marker := marker } : VectorMod).inRange := by
  obtain ⟨hamp, hlow, hhigh, hacc, _⟩ := h
  exact ⟨hamp, hlow, hhigh, hacc, hage⟩

/-- The accumulator is a remainder by one revolution (R45). -/
theorem advanceAngle_le (acc : Nat) (rate : Int) : advanceAngle acc rate ≤ 201326591 := by
  unfold advanceAngle revolution
  omega

/-- A setpoint in range brings values in range, a given angle a whole number of au below the revolution (R44). -/
theorem inRange_vectorStep {k : Channel} (h : InRange k) : InRange k.vectorStep := by
  obtain ⟨hv, hslot⟩ := h
  unfold Channel.vectorStep
  split
  next a w theta hk =>
    obtain ⟨hamp, hlow, hhigh, htheta⟩ := hslot _ hk
    refine ⟨⟨hamp, hlow, hhigh, ?_, Nat.zero_le _⟩, fun p hp => by cases hp⟩
    cases theta with
    | none => exact advanceAngle_le _ _
    | some x =>
      have hx : x ≤ 3071 := htheta x rfl
      simp only
      omega
  next => exact ⟨hv, hslot⟩
  next =>
    obtain ⟨hamp, hlow, hhigh, _, _⟩ := hv
    exact ⟨⟨hamp, hlow, hhigh, advanceAngle_le _ _, min_le_left _ _⟩, hslot⟩

theorem inRange_stepSetpoint {k : Channel} (h : InRange k) : InRange k.stepSetpoint := by
  unfold Channel.stepSetpoint
  split
  · exact ⟨h.1, fun p hp => by cases hp⟩
  · exact h

/-- A setpoint that VECTOR_SET stores has been limited (R42). -/
theorem inRange_limited (a : Nat) (w : Int) (θ : Option Nat) :
    (Setpoint.vector (min maxAmp a) (clampRate w) (θ.map (· % 3072))).inRange := by
  refine ⟨min_le_left _ _, ?_, ?_, fun n hn => ?_⟩
  · unfold clampRate maxRate
    omega
  · unfold clampRate maxRate
    omega
  · obtain ⟨m, _, rfl⟩ := Option.map_eq_some_iff.1 hn
    omega

theorem inRange_store {k : Channel} {x : Setpoint} (hx : x.inRange) (h : InRange k) : InRange (k.store x) :=
  ⟨h.1, fun p hp => by cases hp; exact hx⟩

theorem vectorsInRange_staleWarn {s : State} (c : Chan) (hs : s.vectorsInRange) : (s.staleWarn c).vectorsInRange := by
  have marked : (s.modCh c fun x => { x with vm := { x.vm with marker := true } }).vectorsInRange :=
    vectorsInRange_modCh (fun ⟨hv@⟨_, _, _, _, hage⟩, hslot⟩ => ⟨inRange_withAge _ true hage hv, hslot⟩) hs
  simp only [State.staleWarn]
  split
  · exact vectorsInRange_of_setpoints (by simp) marked
  · exact hs

theorem vectorsInRange_vectorPeriod {s : State} (c : Chan) (t : Time) (m : Seq) (hs : s.vectorsInRange) :
    (s.vectorPeriod c t m).vectorsInRange := by
  have closed : (s.closePeriod c).vectorsInRange := vectorsInRange_of_setpoints (by simp) hs
  have stepped := vectorsInRange_staleWarn c (vectorsInRange_modCh (c := c) inRange_vectorStep closed)
  simp only [State.vectorPeriod]
  split_ifs
  · exact vectorsInRange_of_setpoints (by simp) stepped
  · exact vectorsInRange_of_setpoints (by simp) stepped
  · exact closed

theorem vectorsInRange_stepPeriod {s : State} (c : Chan) (t : Time) (m : Seq) (hs : s.vectorsInRange) :
    (s.stepPeriod c t m).vectorsInRange := by
  have closed : (s.closePeriod c).vectorsInRange := vectorsInRange_of_setpoints (by simp) hs
  simp only [State.stepPeriod]
  split_ifs
  · exact vectorsInRange_of_setpoints (by simp) (vectorsInRange_modCh (c := c) inRange_stepSetpoint closed)
  · exact vectorsInRange_of_setpoints (by simp) closed
  · exact closed

theorem vectorsInRange_periodWork {s : State} (c : Chan) (t : Time) (m : Seq) (hs : s.vectorsInRange) :
    (s.periodWork c t m).vectorsInRange := by
  have begun := vectorsInRange_of_setpoints (setpoints_beginPeriod s c t m s.tb.h) hs
  simp only [State.periodWork]
  split
  case h_1 => exact vectorsInRange_vectorPeriod c t m begun
  case h_2 => exact vectorsInRange_stepPeriod c t m begun
  case h_3 => exact vectorsInRange_stepPeriod c t m begun
  case h_4 => exact vectorsInRange_stepPeriod c t m begun
  case h_5 => exact vectorsInRange_of_setpoints (setpoints_calPeriod _ _ _ _) begun
  all_goals exact begun

/-! The owners that write a modulator or a slot. -/

theorem vectorsInRange_onChannel {n : Nat} {owner : Chan → State → State × Answer} {s : State}
    (h : ∀ c, (owner c s).1.vectorsInRange) (hs : s.vectorsInRange) : (onChannel n owner s).1.vectorsInRange := by
  unfold onChannel
  split
  · exact hs
  · exact h _

theorem vectorsInRange_ownActivate (n : Nat) {s : State} (hs : s.vectorsInRange) : (ownActivate n s).1.vectorsInRange := by
  refine vectorsInRange_onChannel (fun c => ?_) hs
  have activated : (s.activateIdle c).vectorsInRange := by
    have written : ∀ slot, (∀ p, slot = some p → p.inRange) → (s.modCh c fun x =>
        { x with active := x.staged, live := none, slot := slot, state := .stopped }).vectorsInRange :=
      fun _ hslot => vectorsInRange_modCh (fun hk => ⟨hk.1, hslot⟩) hs
    have kept := written (if (s.chan c).active.kind = (s.chan c).staged.kind then (s.chan c).slot else none) (by
      split
      · exact (hs c).2
      · exact fun p hp => by cases hp)
    simp only [State.activateIdle]
    split
    · exact vectorsInRange_modCh (fun hk => hk) kept
    · exact kept
  simp only
  split
  · exact hs
  · split
    · exact hs
    · split_ifs
      · exact vectorsInRange_of_setpoints (setpoints_modCh rfl rfl) hs
      · exact hs
      · exact activated

theorem vectorsInRange_ownStart (f : Nat × Option StepFields) {s : State} (hs : s.vectorsInRange) :
    (ownStart f s).1.vectorsInRange := by
  refine vectorsInRange_onChannel (fun c => ?_) hs
  have started : ∀ {k : Channel}, InRange k → k.vm.started.inRange := fun hk =>
    inRange_withAge 0 false (Nat.zero_le _) hk.1
  simp only
  split
  · exact hs
  · split
    · exact hs
    · exact hs
    · split_ifs
      · exact hs
      · exact hs
      · exact vectorsInRange_modCh (fun hk => ⟨started hk, hk.2⟩) hs
    · split
      · exact hs
      · split
        · exact hs
        · exact vectorsInRange_modCh (fun hk => ⟨started hk, hk.2⟩) hs

theorem vectorsInRange_ownVectorSet (f : VectorFields) {s : State} (hs : s.vectorsInRange) :
    (ownVectorSet f s).1.vectorsInRange := by
  refine vectorsInRange_onChannel (fun c => ?_) hs
  simp only
  split_ifs
  · exact hs
  · exact hs
  · exact vectorsInRange_modCh (inRange_store (inRange_limited _ _ _)) hs

theorem vectorsInRange_ownStepSet (f : StepSetFields) {s : State} (hs : s.vectorsInRange) :
    (ownStepSet f s).1.vectorsInRange := by
  refine vectorsInRange_onChannel (fun c => ?_) hs
  simp only
  split_ifs
  · exact hs
  · exact hs
  · exact vectorsInRange_modCh (inRange_store trivial) hs

theorem vectorsInRange_ownClearTrip (n : Nat) {s : State} (hs : s.vectorsInRange) : (ownClearTrip n s).1.vectorsInRange := by
  refine vectorsInRange_onChannel (fun c => ?_) hs
  split_ifs
  · exact hs
  · exact hs
  · refine vectorsInRange_modCh (fun hk => ⟨?_, fun p hp => by cases hp⟩)
      (vectorsInRange_of_setpoints (setpoints_modGates _ _ _) hs)
    exact inRange_withAge 0 false (Nat.zero_le _) hk.1

/-! ### Every command -/

/-- A command that leaves every modulator and setpoint slot as it was. -/
def LeavesSetpoints (s : State) (o : Host.Outcome State Fault Refusal) : Prop :=
  ∀ t, o = .next t → setpoints t.ch = setpoints s.ch

/-- A command that keeps the ranges of the modulators and setpoint slots. -/
def KeepsRanges (s : State) (o : Host.Outcome State Fault Refusal) : Prop :=
  s.vectorsInRange → ∀ t, o = .next t → t.vectorsInRange

theorem LeavesSetpoints.keepsRanges {s : State} {o : Host.Outcome State Fault Refusal} (h : LeavesSetpoints s o) :
    KeepsRanges s o := fun hs t ht => vectorsInRange_of_setpoints (h t ht) hs

@[simp] theorem leavesSetpoints_next (s u : State) : LeavesSetpoints s (.next u) ↔ setpoints u.ch = setpoints s.ch := by
  simp [LeavesSetpoints]

@[simp] theorem leavesSetpoints_done (s u : State) : LeavesSetpoints s (done u) ↔ setpoints u.ch = setpoints s.ch := by
  simp [done_eq]

theorem keepsRanges_done {s u : State} (h : s.vectorsInRange → u.vectorsInRange) : KeepsRanges s (done u) := by
  intro hs t ht
  cases ht
  exact vectorsInRange_of_setpoints (by simp) (h hs)

theorem keepsRanges_next (s : State) : KeepsRanges s (.next s) := by
  intro hs t ht
  cases ht
  exact hs

theorem keepsRanges_reset {s u : State} (h : u.ch = ⟨.reset, .reset, .reset⟩) : KeepsRanges s (done u) := fun _ _ ht =>
  vectorsInRange_of_reset (channelsReset_of_done h ht)

/-- The link's part of a request touches no channel; the rest is the owner's. -/
theorem keepsRanges_takeRequest {α : Type} {type tag : Byte} {pl : Bool} {fields : Option α} {owner : α → State → State × Answer}
    {s : State} (h : ∀ a, s.vectorsInRange → (owner a s).1.vectorsInRange) :
    KeepsRanges s (takeRequest type tag pl fields owner s) := by
  intro hs t ht
  have replied : ∀ (u : State) (a : Answer), u.vectorsInRange → (u.replied type tag a).vectorsInRange := by
    intro u a
    rw [State.replied_eq]
    exact id
  rcases takeRequest_cases type tag pl fields owner s with ⟨_, h'⟩ | ⟨_, _, h'⟩ | ⟨a, _, _, _, _, h'⟩ | ⟨a, _, _, _, h'⟩ <;>
    rw [h'] at ht <;> cases ht
  · exact hs
  · exact replied _ _ hs
  · exact replied _ _ hs
  · exact replied _ _ (h a hs)

theorem keepsRanges_request {α : Type} {type tag : Byte} {pl : Bool} {fields : Option α} {owner : α → State → State × Answer}
    {s : State} (h : ∀ a, setpoints (owner a s).1.ch = setpoints s.ch) : KeepsRanges s (takeRequest type tag pl fields owner s) :=
  keepsRanges_takeRequest fun a => vectorsInRange_of_setpoints (h a)

/-! The period events and the examinations. -/

theorem leavesSetpoints_execMasterPeriodStart (s : State) : LeavesSetpoints s (execMasterPeriodStart s) := by
  unfold execMasterPeriodStart
  split <;> simp

theorem keepsRanges_execChannelPeriodStart (c : Chan) (s : State) : KeepsRanges s (execChannelPeriodStart c s) := by
  unfold execChannelPeriodStart
  split
  · exact keepsRanges_done fun hs => vectorsInRange_periodWork _ _ _ (vectorsInRange_of_setpoints (setpoints_waitUntil _ _) hs)
  · exact keepsRanges_next s

theorem leavesSetpoints_execPeriodReport (c : Chan) (s : State) : LeavesSetpoints s (execPeriodReport c s) := by
  simp only [execPeriodReport]
  split
  · split <;> simp
  · simp

/-! The events of a channel. -/

theorem leavesSetpoints_execHalfPeriodPoint (c : Chan) (s : State) : LeavesSetpoints s (execHalfPeriodPoint c s) := by
  unfold execHalfPeriodPoint
  split <;> simp

theorem leavesSetpoints_execCommutationDue (c : Chan) (s : State) : LeavesSetpoints s (execCommutationDue c s) := by
  unfold execCommutationDue
  split
  · split <;> simp
  · simp

theorem leavesSetpoints_execHandover (c : Chan) (tzc : Time) (s : State) : LeavesSetpoints s (execHandover c tzc s) := by
  simp only [execHandover]
  split <;> simp

theorem leavesSetpoints_execGateEdge (c : Chan) (x : Phase) (s : State) : LeavesSetpoints s (execGateEdge c x s) := by
  simp only [execGateEdge]
  split
  · split <;> simp
  · simp

theorem leavesSetpoints_execPendingTurnOn (c : Chan) (x : Phase) (side : Side) (s : State) :
    LeavesSetpoints s (execPendingTurnOn c x side s) := by
  unfold execPendingTurnOn
  split <;> simp

theorem leavesSetpoints_execFaultInputAssertion (c : Chan) (s : State) : LeavesSetpoints s (execFaultInputAssertion c s) := by
  simp only [execFaultInputAssertion]
  split <;> simp

theorem leavesSetpoints_execFaultInputRelease (c : Chan) (s : State) : LeavesSetpoints s (execFaultInputRelease c s) := by
  simp only [execFaultInputRelease]
  split <;> simp

/-! The converter's events. -/

theorem leavesSetpoints_execConversionStart (s : State) : LeavesSetpoints s (execConversionStart s) := by
  have waited : ∀ (b : Bool) (u : State) (t : Time), setpoints (if b then u else u.waitUntil t).ch = setpoints u.ch := by
    intro b u t
    split <;> simp
  simp only [execConversionStart]
  split
  · split
    · exact (leavesSetpoints_done _ _).2 (waited _ _ _)
    · simp
  · simp

theorem leavesSetpoints_execConversionComplete (raw : BitVec 12) (s : State) : LeavesSetpoints s (execConversionComplete raw s) := by
  unfold execConversionComplete
  split <;> simp

theorem leavesSetpoints_execLate (slot : Nat) (s : State) : LeavesSetpoints s (execLate slot s) := by
  unfold execLate
  split
  · split <;> simp
  · simp

/-! The events of the device and the link. -/

theorem keepsRanges_execMessageReset (s : State) : KeepsRanges s (execMessageReset s) := by
  unfold execMessageReset
  split
  · exact keepsRanges_reset rfl
  · exact keepsRanges_next s

theorem keepsRanges_execFrameSent (s : State) : KeepsRanges s (execFrameSent s) := by
  unfold execFrameSent
  split
  next e left _ =>
    cases e with
    | messageReset => exact keepsRanges_reset rfl
    | nothing => exact LeavesSetpoints.keepsRanges (by simp [State.frameGone])
    | quietEntry => exact LeavesSetpoints.keepsRanges (by simp [State.frameGone])
    | setLink r gap => exact LeavesSetpoints.keepsRanges (by simp [State.frameGone])
  next => exact keepsRanges_next s

theorem leavesSetpoints_execSetLinkInForce (s : State) : LeavesSetpoints s (execSetLinkInForce s) := by
  unfold execSetLinkInForce
  split <;> simp

theorem leavesSetpoints_execQuietEntry (s : State) : LeavesSetpoints s (execQuietEntry s) := by
  unfold execQuietEntry
  split <;> simp

theorem leavesSetpoints_execGapEnd (s : State) : LeavesSetpoints s (execGapEnd s) := by
  unfold execGapEnd
  split <;> simp

theorem leavesSetpoints_execStartUpEnd (s : State) : LeavesSetpoints s (execStartUpEnd s) := by
  unfold execStartUpEnd
  split <;> simp

theorem leavesSetpoints_execWakeComplete (s : State) : LeavesSetpoints s (execWakeComplete s) := by
  unfold execWakeComplete
  split <;> simp

theorem leavesSetpoints_execResetRelease (s : State) : LeavesSetpoints s (execResetRelease s) := by
  unfold execResetRelease
  split <;> simp

theorem leavesSetpoints_execSlowStep (s : State) : LeavesSetpoints s (execSlowStep s) := by
  unfold execSlowStep
  split <;> simp

theorem leavesSetpoints_execWindowExpiry (s : State) : LeavesSetpoints s (execWindowExpiry s) := by
  unfold execWindowExpiry
  split <;> simp

theorem leavesSetpoints_execCharacterArrival (char : Byte) (fe : Bool) (s : State) :
    LeavesSetpoints s (execCharacterArrival char fe s) := by
  unfold execCharacterArrival State.linkError
  split_ifs <;> simp

theorem leavesSetpoints_execFrameTimeout (s : State) : LeavesSetpoints s (execFrameTimeout s) := by
  unfold execFrameTimeout State.linkError
  split <;> simp

theorem leavesSetpoints_execUnknownType (type tag : Byte) (p : List Byte) (s : State) :
    LeavesSetpoints s (execUnknownType type tag p s) := by
  unfold execUnknownType
  split <;> simp [State.pushReply]

theorem exec_keepsRanges (i : Instr) (s : State) : KeepsRanges s (exec i s) := by
  cases i with
  | ident tag p => exact keepsRanges_request (owner := ownIdent) fun _ => rfl
  | setLink tag p => exact keepsRanges_request (setpoints_ownSetLink · s)
  | setLinkInForce => exact (leavesSetpoints_execSetLinkInForce s).keepsRanges
  | reset tag p => exact keepsRanges_request (owner := ownReset) fun _ => rfl
  | messageReset => exact keepsRanges_execMessageReset s
  | sleep tag p => exact keepsRanges_request fun _ => setpoints_ownSleep s
  | quietEntry => exact (leavesSetpoints_execQuietEntry s).keepsRanges
  | deviceStatus tag p => exact keepsRanges_request (setpoints_ownStatus · s)
  | channelStatus tag p => exact keepsRanges_request (setpoints_ownStatus · s)
  | recover tag p => exact keepsRanges_request fun _ => setpoints_ownRecover s
  | supervise tag p => exact keepsRanges_request (setpoints_ownSupervise · s)
  | heartbeat tag p => exact keepsRanges_request (setpoints_ownHeartbeat · s)
  | carrier tag p => exact keepsRanges_request (setpoints_ownCarrier · s)
  | converter tag p => exact keepsRanges_request (setpoints_ownConverter · s)
  | auxPlan tag p => exact keepsRanges_request (setpoints_ownAuxPlan · s)
  | limits tag p => exact keepsRanges_request (setpoints_ownLimits · s)
  | channelSetup tag p => exact keepsRanges_request (setpoints_ownSetup · s)
  | activate tag p => exact keepsRanges_takeRequest fun n => vectorsInRange_ownActivate n
  | profile tag p => exact keepsRanges_request (setpoints_ownProfile · s)
  | calibrate tag p => exact keepsRanges_request (setpoints_ownCalibrate · s)
  | start tag p => exact keepsRanges_takeRequest fun f => vectorsInRange_ownStart f
  | stopCoast tag p => exact keepsRanges_request (setpoints_ownStop · s)
  | stopBrake tag p => exact keepsRanges_request (setpoints_ownStop · s)
  | vectorSet tag p => exact keepsRanges_takeRequest fun f => vectorsInRange_ownVectorSet f
  | stepSet tag p => exact keepsRanges_takeRequest fun f => vectorsInRange_ownStepSet f
  | clearTrip tag p => exact keepsRanges_takeRequest fun n => vectorsInRange_ownClearTrip n
  | unknownType type tag p => exact (leavesSetpoints_execUnknownType type tag p s).keepsRanges
  | powerOnReset v => exact keepsRanges_reset rfl
  | pinReset => exact keepsRanges_reset rfl
  | startUpEnd => exact (leavesSetpoints_execStartUpEnd s).keepsRanges
  | masterPeriodStart => exact (leavesSetpoints_execMasterPeriodStart s).keepsRanges
  | busStale => exact keepsRanges_done (vectorsInRange_of_setpoints (setpoints_busStaleStep s))
  | channelPeriodStart c => exact keepsRanges_execChannelPeriodStart c s
  | stale c => exact keepsRanges_done (vectorsInRange_staleWarn c)
  | staleTrip c => exact keepsRanges_done (vectorsInRange_of_setpoints (setpoints_staleTripStep s c))
  | calTimeout c => exact keepsRanges_done (vectorsInRange_of_setpoints (setpoints_calTimeoutStep s c))
  | halfPeriodPoint c => exact (leavesSetpoints_execHalfPeriodPoint c s).keepsRanges
  | lostSync c => exact keepsRanges_done (vectorsInRange_of_setpoints (setpoints_lostSyncStep s c))
  | commutationDue c => exact (leavesSetpoints_execCommutationDue c s).keepsRanges
  | gateEdge c x => exact (leavesSetpoints_execGateEdge c x s).keepsRanges
  | pendingTurnOn c x side => exact (leavesSetpoints_execPendingTurnOn c x side s).keepsRanges
  | conversionStart => exact (leavesSetpoints_execConversionStart s).keepsRanges
  | conversionComplete raw => exact (leavesSetpoints_execConversionComplete raw s).keepsRanges
  | calDone c => exact keepsRanges_done (vectorsInRange_of_setpoints (setpoints_calDoneStep s c))
  | handover c tzc => exact (leavesSetpoints_execHandover c tzc s).keepsRanges
  | late slot => exact (leavesSetpoints_execLate slot s).keepsRanges
  | currentLimit c => exact keepsRanges_done (vectorsInRange_of_setpoints (setpoints_limitStep s c _))
  | periodReport c => exact (leavesSetpoints_execPeriodReport c s).keepsRanges
  | faultInputAssertion c => exact (leavesSetpoints_execFaultInputAssertion c s).keepsRanges
  | faultInputRelease c => exact (leavesSetpoints_execFaultInputRelease c s).keepsRanges
  | slowStep => exact (leavesSetpoints_execSlowStep s).keepsRanges
  | windowExpiry => exact (leavesSetpoints_execWindowExpiry s).keepsRanges
  | characterArrival char fe => exact (leavesSetpoints_execCharacterArrival char fe s).keepsRanges
  | wakeComplete => exact (leavesSetpoints_execWakeComplete s).keepsRanges
  | frameTimeout => exact (leavesSetpoints_execFrameTimeout s).keepsRanges
  | frameSent => exact keepsRanges_execFrameSent s
  | gapEnd => exact (leavesSetpoints_execGapEnd s).keepsRanges
  | resetRelease => exact (leavesSetpoints_execResetRelease s).keepsRanges

/-- Settles O10: a step is a command, which `exec_keepsRanges` speaks of, or the idle step, which leaves every setpoint. -/
theorem vectorModulatorsStayInRange : Obligations.VectorModulatorsStayInRange := by
  intro s t hs h
  unfold step at h
  split at h
  next i rest _ => exact exec_keepsRanges i { s with pending := rest } hs t h
  next =>
    cases h
    exact vectorsInRange_of_setpoints (setpoints_idle s) hs

end Sys2Proof.Modulation

/-!
The gate outputs (ch.4): the two switches of a phase stay apart over every command, the boundaries of a plan's intervals with the turn-ons
that wait for the dead time, and the start and the expiry of a conversion request.
-/

namespace Sys2Proof.Edges

open Sys2Proof Sys2Proof.Machine Sys2Proof.Motor

/-! ### One phase (R65) -/

/-- The two switches of a phase are not on together. -/
def PhaseApart (g : PhaseGate) : Prop := ¬(g.top = true ∧ g.bottom = true)

theorem phaseApart_of_top {g : PhaseGate} (h : g.top = false) : PhaseApart g := fun hg => Bool.false_ne_true (h.symm.trans hg.1)

theorem phaseApart_of_bottom {g : PhaseGate} (h : g.bottom = false) : PhaseApart g := fun hg =>
  Bool.false_ne_true (h.symm.trans hg.2)

/-- Only the two outputs count. -/
theorem PhaseApart.of_outputs {a b : PhaseGate} (h : PhaseApart a) (ht : b.top = a.top) (hb : b.bottom = a.bottom) :
    PhaseApart b := by
  unfold PhaseApart
  rw [ht, hb]
  exact h

theorem PhaseApart.bottomAt {g : PhaseGate} (t : Time) (h : PhaseApart g) : PhaseApart (g.bottomAt t) :=
  h.of_outputs (g.bottomAt_outputs t).1 (g.bottomAt_outputs t).2

theorem PhaseApart.topAt {g : PhaseGate} (t : Time) (h : PhaseApart g) : PhaseApart (g.topAt t) :=
  h.of_outputs (g.topAt_outputs t).1 (g.topAt_outputs t).2

theorem phaseApart_topDown (g : PhaseGate) (now : Time) (d : Nat) : PhaseApart (g.topDown now d) := phaseApart_of_top rfl

theorem phaseApart_bottomDown (g : PhaseGate) (now : Time) (d : Nat) : PhaseApart (g.bottomDown now d) := phaseApart_of_bottom rfl

/-- A pending turn-on is the one operation that turns a switch on, and it looks at the complementary switch first. -/
theorem PhaseApart.turnOn {g : PhaseGate} (side : Side) (now : Time) (h : PhaseApart g) : PhaseApart (g.turnOn side now) := by
  cases side
  case top =>
    unfold PhaseGate.turnOn
    simp only
    by_cases hb : g.bottom = true
    · rw [if_pos hb]
      exact h
    · exact phaseApart_of_bottom (by split_ifs <;> exact Bool.eq_false_iff.2 hb)
  case bottom =>
    unfold PhaseGate.turnOn
    simp only
    by_cases ht : g.top = true
    · rw [if_pos ht]
      exact h
    · exact phaseApart_of_top (by split_ifs <;> exact Bool.eq_false_iff.2 ht)

/-- At a boundary one switch turns off, or nothing happens (R64, R67). -/
theorem PhaseApart.meetEdge {g : PhaseGate} (p : Plan) (next : Option Plan) (x : Phase) (h d : Nat) (now : Time)
    (hg : PhaseApart g) : PhaseApart (g.meetEdge p next x h d now) := by
  unfold PhaseGate.meetEdge
  split
  · exact hg
  · split_ifs
    · exact hg
    · exact (phaseApart_bottomDown g now d).topAt _
    · exact hg
    · exact (phaseApart_topDown g now d).bottomAt _
    · exact phaseApart_topDown g now d
    · exact hg

theorem PhaseApart.firstPlan {g : PhaseGate} (p : Plan) (x : Phase) (h d : Nat) (now : Time) (hg : PhaseApart g) :
    PhaseApart (g.firstPlan p x h d now) := by
  have fresh : PhaseApart { g with edges := 0 } := hg
  simp only [PhaseGate.firstPlan]
  split
  · split_ifs
    · exact fresh
    · exact fresh.bottomAt _
  · split_ifs
    · exact fresh.bottomAt _
    · exact fresh
  · exact fresh

theorem PhaseApart.followPlan {g : PhaseGate} (old new : Plan) (x : Phase) (h d : Nat) (now : Time) (hg : PhaseApart g) :
    PhaseApart (g.followPlan old new x h d now) := by
  have closed : PhaseApart (g.closeEdges old (some new) x h d now) := (hg.meetEdge old _ x h d now).meetEdge old _ x h d now
  simp only [PhaseGate.followPlan]
  split
  · split_ifs
    · exact closed.bottomAt _
    · exact closed
  · exact closed

/-- A commutation turns a switch off on every phase whose role changes (R69). -/
theorem PhaseApart.commutate {g : PhaseGate} (old new : Role) (at' : CommPoint) (h d c : Nat) (now : Time) (hg : PhaseApart g) :
    PhaseApart (g.commutate old new at' h d c now) := by
  have bottomOff := phaseApart_bottomDown g now d
  unfold PhaseGate.commutate
  split
  case h_1 => exact hg
  case h_2 => exact hg
  case h_3 => exact hg
  case h_4 => exact phaseApart_of_top rfl
  case h_5 => exact (phaseApart_topDown g now d).bottomAt _
  case h_6 =>
    cases at' with
    | atStart => exact bottomOff
    | beforeStart => exact bottomOff
    | atPeak =>
      simp only
      split_ifs
      · exact bottomOff.topAt _
      · exact bottomOff

/-! ### One channel -/

/-- One channel's part of `State.gatesApart`. -/
def GatesApart (g : Gates) : Prop := ∀ x, PhaseApart (g.get x)

theorem gatesApart_of_topsOff {g : Gates} (h : TopsOff g) : GatesApart g := fun x => phaseApart_of_top (h x).1

theorem gatesApart_of_sameSwitches {a b : Gates} (h : SameSwitches a b) (ha : GatesApart a) : GatesApart b := fun x =>
  (ha x).of_outputs (h x).1 (h x).2.1

theorem gatesApart_allOff (g : Gates) (now : Time) (d : Nat) : GatesApart (Gates.allOff g now d) :=
  gatesApart_of_topsOff (allOff_allOff g now d).topsOff

theorem gatesApart_bottomsOn (g : Gates) (now : Time) (d : Nat) : GatesApart (Gates.bottomsOn g now d) :=
  gatesApart_of_topsOff (topsOff_bottomsOn g now d)

theorem GatesApart.trip {g : Gates} (braking : Bool) (safe : SafeState) (now : Time) (d : Nat) (hg : GatesApart g) :
    GatesApart (tripGates braking safe g now d) := by
  cases safe with
  | openAll => exact gatesApart_allOff g now d
  | short =>
    cases braking
    · exact gatesApart_bottomsOn g now d
    · exact hg

theorem GatesApart.set {g : Gates} (x : Phase) {y : PhaseGate} (hg : GatesApart g) (hy : PhaseApart y) : GatesApart (g.set x y) := by
  intro z
  rw [PerPhase.get_set]
  split_ifs
  · exact hy
  · exact hg z

theorem GatesApart.becomeCurrent {g : Gates} (old : Option Plan) (new : Plan) (h d : Nat) (now : Time) (hg : GatesApart g) :
    GatesApart (Gates.becomeCurrent g old new h d now) := by
  intro x
  cases old with
  | none => simpa [Gates.becomeCurrent] using (hg x).firstPlan new x h d now
  | some o => simpa [Gates.becomeCurrent] using (hg x).followPlan o new x h d now

theorem GatesApart.commutate {g : Gates} (i j : Nat) (at' : CommPoint) (h d c : Nat) (now : Time) (hg : GatesApart g) :
    GatesApart (Gates.commutate g i j at' h d c now) := by
  intro x
  simpa [Gates.commutate] using (hg x).commutate (roleOf i x) (roleOf j x) at' h d c now

/-! ### All channels -/

theorem gatesApart_of_same {s t : State} (h : SameAll s t) (hs : s.gatesApart) : t.gatesApart := fun c =>
  gatesApart_of_sameSwitches (h c).gates (hs c)

theorem gatesApart_modCh {s : State} {c : Chan} {f : Channel → Channel} (hf : GatesApart (f (s.chan c)).gates)
    (hs : s.gatesApart) : (s.modCh c f).gatesApart := by
  intro x
  rw [State.chan_modCh]
  split_ifs with hx
  · rw [hx]; exact hf
  · exact hs x

/-- Where one channel is rewritten and the others stay, that channel's gates decide. -/
theorem gatesApart_of_one {s t : State} {c : Chan} (hc : GatesApart (t.chan c).gates) (ho : ∀ x, x ≠ c → t.chan x = s.chan x)
    (hs : s.gatesApart) : t.gatesApart := by
  intro x
  by_cases hx : x = c
  · rw [hx]; exact hc
  · rw [ho x hx]; exact hs x

theorem gatesApart_foldl {α : Type} {f : State → α → State} (hf : ∀ s a, s.gatesApart → (f s a).gatesApart) (l : List α)
    {s : State} (hs : s.gatesApart) : (l.foldl f s).gatesApart := by
  induction l generalizing s with
  | nil => exact hs
  | cons a l ih => exact ih (hf s a hs)

theorem gatesApart_ite {p : Prop} [Decidable p] {a b : State} (ha : a.gatesApart) (hb : b.gatesApart) :
    (if p then a else b).gatesApart := by
  split_ifs
  · exact ha
  · exact hb

theorem gatesApart_elapse {s : State} (n : Nat) (hs : s.gatesApart) : (s.elapse n).gatesApart :=
  gatesApart_of_same (sameAll_elapse s n) hs

theorem gatesApart_waitUntil {s : State} (t : Time) (hs : s.gatesApart) : (s.waitUntil t).gatesApart :=
  gatesApart_of_same (sameAll_waitUntil s t) hs

theorem gatesApart_queueEvent {s : State} (e : EventCode) (c : Option Chan) (d : Nat) (hs : s.gatesApart) :
    (s.queueEvent e c d).gatesApart := hs

theorem gatesApart_modSq {s : State} (c : Chan) (f : StepSeq → StepSeq) (hs : s.gatesApart) : (s.modSq c f).gatesApart :=
  gatesApart_of_same (sameAll_modSq s c f) hs

theorem gatesApart_modProt {s : State} (f : Protection → Protection) (hs : s.gatesApart) : (s.modProt f).gatesApart := hs

/-! ### The ends of a run and the trip causes -/

theorem gatesApart_toStopped {s : State} (c : Chan) (hs : s.gatesApart) : (s.toStopped c).gatesApart :=
  gatesApart_of_one (by rw [State.chan_toStopped_same]; exact gatesApart_allOff _ _ _) (fun _ => s.chan_toStopped_other) hs

theorem gatesApart_toBraking {s : State} (c : Chan) (hs : s.gatesApart) : (s.toBraking c).gatesApart :=
  gatesApart_of_one (by rw [chan_toBraking_same]; exact gatesApart_bottomsOn _ _ _) (fun _ => chan_toBraking_other s) hs

theorem gatesApart_calFailed {s : State} (c : Chan) (f : CalFailure) (hs : s.gatesApart) : (s.calFailed c f).gatesApart :=
  gatesApart_queueEvent _ _ _ (gatesApart_toStopped c hs)

theorem gatesApart_enterTripped {s : State} (c : Chan) (k : TripCause) (hs : s.gatesApart) : (s.enterTripped c k).gatesApart := by
  refine gatesApart_of_one ?_ (fun _ => s.chan_enterTripped_other k) hs
  rw [State.chan_enterTripped_same, State.chan_endRun_same]
  exact GatesApart.trip _ _ _ _ (hs c)

theorem gatesApart_reachCause {s : State} (c : Chan) (k : TripCause) (hs : s.gatesApart) : (s.reachCause c k).gatesApart := by
  rcases s.reachCause_cases c k with ⟨_, h⟩ | ⟨_, h⟩ | ⟨_, _, h⟩ | ⟨_, _, _, h⟩ <;> rw [h]
  · exact gatesApart_enterTripped c k hs
  · exact gatesApart_queueEvent _ _ _ (gatesApart_modCh (hs c) hs)
  · exact gatesApart_queueEvent _ _ _ (gatesApart_calFailed c _ hs)
  · exact gatesApart_queueEvent _ _ _ hs

theorem gatesApart_sendCause {s : State} (k : TripCause) (who : ChanState → Bool) (hs : s.gatesApart) :
    (s.sendCause k who).gatesApart :=
  gatesApart_foldl (fun _ c ha => gatesApart_ite (gatesApart_reachCause c k ha) ha) _ hs

theorem gatesApart_faultAsserted {s : State} (c : Chan) (hs : s.gatesApart) : (s.faultAsserted c).gatesApart := by
  unfold State.faultAsserted
  rw [modGates_modCh]
  exact gatesApart_reachCause c _ (gatesApart_modCh (gatesApart_allOff _ _ _) hs)

theorem gatesApart_sampleFaults {s : State} (hs : s.gatesApart) : s.sampleFaults.gatesApart :=
  gatesApart_foldl (f := fun a c => if a.prot.pins.get c then a.faultAsserted c else a)
    (fun _ c ha => gatesApart_ite (gatesApart_faultAsserted c ha) ha) _ hs

theorem gatesApart_limitStep {s : State} (c : Chan) (n : Nat) (hs : s.gatesApart) : (s.limitStep c n).gatesApart :=
  gatesApart_ite (gatesApart_reachCause c _ hs) hs

theorem gatesApart_closePeriod {s : State} (c : Chan) (hs : s.gatesApart) : (s.closePeriod c).gatesApart := by
  unfold State.closePeriod
  split
  · exact hs
  · exact gatesApart_limitStep c _ (gatesApart_of_same ((sameAll_modRb _ c _).trans (sameAll_reportStep _ _ _)) hs)

/-! ### The step sequencer -/

theorem gatesApart_commutate {s : State} (c : Chan) (t : Time) (peak : Bool) (hs : s.gatesApart) :
    (s.commutate c t peak).gatesApart := by
  refine gatesApart_modCh (s := s.modSched (·.noteCommutation c)) ?_ hs
  simp only
  split
  · exact GatesApart.commutate _ _ _ _ _ _ _ (hs c)
  · exact hs c

theorem gatesApart_enterSegment {s : State} (c : Chan) (i : Nat) (t : Time) (hs : s.gatesApart) :
    (s.enterSegment c i t).gatesApart := by
  have begun := gatesApart_modSq c (fun q => { q with seg := i, j := 0 }) hs
  simp only [State.enterSegment]
  split <;> exact gatesApart_modSq c _ (gatesApart_modCh (begun c) begun)

theorem gatesApart_advanceRun {s : State} (c : Chan) (t : Time) (peak : Bool) (hs : s.gatesApart) :
    (s.advanceRun c t peak).gatesApart := by
  have counted := fun f => gatesApart_modSq c f hs
  simp only [State.advanceRun]
  split_ifs
  · exact gatesApart_modSq c _ (gatesApart_modSq c _ (gatesApart_commutate c t peak (counted _)))
  · exact gatesApart_enterSegment c _ t (counted _)
  · exact gatesApart_enterSegment c _ t (gatesApart_commutate c t peak (counted _))
  · exact gatesApart_queueEvent _ _ _ (gatesApart_toStopped c (counted _))

theorem gatesApart_lostSyncStep {s : State} (c : Chan) (hs : s.gatesApart) : (s.lostSyncStep c).gatesApart :=
  gatesApart_ite (gatesApart_reachCause c _ hs) hs

theorem gatesApart_closedCommutation {s : State} (c : Chan) (t : Time) (peak : Bool) (kind : CompareKind) (hs : s.gatesApart) :
    (s.closedCommutation c t peak kind).gatesApart := by
  have moved := fun f => gatesApart_modSq c f (gatesApart_commutate c t peak hs)
  exact gatesApart_ite (gatesApart_lostSyncStep c (gatesApart_queueEvent _ _ _ (gatesApart_modSq c _ (moved _)))) (moved _)

theorem gatesApart_applyCompare {s : State} (c : Chan) (t : Time) (peak : Bool) (hs : s.gatesApart) :
    (s.applyCompare c t peak).gatesApart := by
  simp only [State.applyCompare]
  split
  · exact hs
  · split_ifs
    · split
      · exact gatesApart_advanceRun c t peak hs
      · exact gatesApart_advanceRun c t peak hs
      · exact gatesApart_closedCommutation c t peak _ hs
      · exact hs
    · exact hs

theorem gatesApart_rampCrossing {s : State} (c : Chan) (tzc : Time) (early : Bool) (hs : s.gatesApart) :
    (s.rampCrossing c tzc early).gatesApart := by
  have found := fun f => gatesApart_modSq c f (gatesApart_modSq c (fun q => { q with found := true, lastZc := some tzc }) hs)
  simp only [State.rampCrossing]
  split_ifs
  · unfold State.handOver
    split
    · exact gatesApart_modSq c _ (found _)
    · exact gatesApart_queueEvent _ _ _
        (gatesApart_modSq c _ (gatesApart_modSq c _ (gatesApart_modCh (found _ c) (found _))))
  · exact found _
  · exact found _

theorem gatesApart_senseResult {s : State} (c : Chan) (seq : Seq) (raw : Nat) (start : Time) (input floatInput : Nat)
    (hs : s.gatesApart) : (s.senseResult c seq raw start input floatInput).gatesApart := by
  have classified : ∀ d, (s.classify c start d).gatesApart := by
    intro d
    simp only [State.classify]
    split_ifs
    · exact gatesApart_rampCrossing c _ _ hs
    · exact gatesApart_of_same (sameAll_closedCrossing s c _) hs
    · exact gatesApart_modSq c _ hs
  simp only [State.senseResult]
  split
  · split
    · exact hs
    · split_ifs
      · exact gatesApart_modSq c _ hs
      · exact classified _
  · exact hs

/-! ### The monitor and supervision -/

theorem gatesApart_auxResult {s : State} (a : AuxSource) (raw merged : Nat) (hs : s.gatesApart) :
    (s.auxResult a raw merged).gatesApart := by
  have latest := gatesApart_modProt (·.setLatest a { raw := raw, merged := merged, age := 0 }) hs
  cases a with
  | bus =>
    simp only [State.auxResult, State.examineBus]
    split
    · exact latest
    · exact gatesApart_sendCause _ _ latest
    · exact gatesApart_sendCause _ _ latest
  | temp =>
    simp only [State.auxResult, State.examineTemp]
    split_ifs
    · exact gatesApart_sendCause _ _ (gatesApart_queueEvent _ _ _ latest)
    · exact gatesApart_sendCause _ _ latest
    · exact gatesApart_queueEvent _ _ _ latest
    · exact latest
  | spare1 => exact latest
  | spare2 => exact latest

theorem gatesApart_supervisionTrip {s : State} (k : SupTrip) (hs : s.gatesApart) : (s.supervisionTrip k).gatesApart :=
  gatesApart_sendCause (s := s.queueEvent .supervisionTrip none k.code) .supervision (· != .unconfigured) hs

theorem gatesApart_expiryStep {s : State} (hs : s.gatesApart) : s.expiryStep.gatesApart :=
  gatesApart_ite (gatesApart_ite hs (gatesApart_supervisionTrip _ hs)) hs

theorem gatesApart_heartbeatStep {s : State} (hs : s.gatesApart) : s.heartbeatStep.gatesApart := by
  unfold State.heartbeatStep
  split
  · exact hs
  · simp only
    split_ifs
    · exact gatesApart_supervisionTrip (s := s.modSup _) _ hs
    · split
      · split_ifs <;> exact hs
      · exact hs

/-! ### Period starts -/

theorem gatesApart_planTurn {s : State} (c : Chan) (t : Time) (m : Seq) (hs : s.gatesApart) :
    ((s.planCurrent c t).computePlan c m).gatesApart := by
  have current : (s.planCurrent c t).gatesApart := by
    rcases planCurrent_cases s c t with h | ⟨n, _, h⟩
    · exact gatesApart_of_same h (gatesApart_modCh (hs c) hs)
    · exact gatesApart_of_same h (gatesApart_modCh (GatesApart.becomeCurrent _ _ _ _ _ (hs c)) hs)
  exact gatesApart_modCh (current c) current

theorem gatesApart_staleTripStep {s : State} (c : Chan) (hs : s.gatesApart) : (s.staleTripStep c).gatesApart :=
  gatesApart_ite (gatesApart_reachCause c _ hs) hs

theorem gatesApart_vectorPeriod {s : State} (c : Chan) (t : Time) (m : Seq) (hs : s.gatesApart) :
    (s.vectorPeriod c t m).gatesApart := by
  have closed := gatesApart_closePeriod c hs
  have stepped := gatesApart_of_same ((sameAll_modCh (c := c) same_vectorStep).trans (sameAll_staleWarn _ c)) closed
  have examined := gatesApart_staleTripStep c stepped
  exact gatesApart_ite (gatesApart_ite (gatesApart_planTurn c t m examined) examined) closed

theorem gatesApart_stepPeriod {s : State} (c : Chan) (t : Time) (m : Seq) (hs : s.gatesApart) :
    (s.stepPeriod c t m).gatesApart := by
  have closed := gatesApart_closePeriod c hs
  have applied := gatesApart_of_same (sameAll_modCh (c := c) same_stepSetpoint) closed
  exact gatesApart_ite (gatesApart_planTurn c t m (gatesApart_ite applied closed)) closed

theorem gatesApart_calTimeoutStep {s : State} (c : Chan) (hs : s.gatesApart) : (s.calTimeoutStep c).gatesApart :=
  gatesApart_ite (gatesApart_calFailed c _ hs) hs

theorem gatesApart_calPeriod {s : State} (c : Chan) (t : Time) (m : Seq) (hs : s.gatesApart) : (s.calPeriod c t m).gatesApart := by
  have counted := gatesApart_calTimeoutStep c
    (gatesApart_modCh (f := fun k => { k with calPeriods := min 256 (k.calPeriods + 1) }) (hs c) hs)
  exact gatesApart_ite (gatesApart_planTurn c t m counted) counted

theorem gatesApart_periodWork {s : State} (c : Chan) (t : Time) (m : Seq) (hs : s.gatesApart) :
    (s.periodWork c t m).gatesApart := by
  have begun := gatesApart_of_same (sameAll_modCh (c := c) same_liveInForce)
    (gatesApart_modCh (f := fun k => k.beginPeriod t m s.tb.h) (hs c) hs)
  simp only [State.periodWork]
  split
  case h_1 => exact gatesApart_vectorPeriod c t m begun
  case h_2 => exact gatesApart_stepPeriod c t m begun
  case h_3 => exact gatesApart_stepPeriod c t m begun
  case h_4 => exact gatesApart_stepPeriod c t m begun
  case h_5 => exact gatesApart_calPeriod c t m begun
  all_goals exact begun

/-! ### Conversions -/

theorem gatesApart_calDoneStep {s : State} (c : Chan) (hs : s.gatesApart) : (s.calDoneStep c).gatesApart := by
  have stopped := gatesApart_toStopped c hs
  have written := fun z => gatesApart_modCh (f := fun x => { x with z := z }) (stopped c) stopped
  exact gatesApart_ite (gatesApart_ite (gatesApart_queueEvent _ _ _ (written _)) (gatesApart_calFailed c _ hs)) hs

theorem gatesApart_channelResult {s : State} (c : Chan) (v : Conversion) (raw : Nat) (hs : s.gatesApart) :
    (s.channelResult c v raw).gatesApart := by
  have recorded := fun f => gatesApart_of_same (sameAll_modRb s c f) hs
  simp only [State.channelResult]
  split
  · simp only [State.calResult]
    split_ifs
    · exact gatesApart_calDoneStep c (gatesApart_modCh (hs c) hs)
    · exact hs
  · exact gatesApart_senseResult c _ _ _ _ _ (recorded _)
  · exact recorded _

theorem gatesApart_completeConversion {s : State} (v : Conversion) (raw : Nat) (hs : s.gatesApart) :
    (s.completeConversion v raw).gatesApart := by
  have idle : (s.modSched fun q => { q with conv := none }).gatesApart := hs
  simp only [State.completeConversion]
  split
  next c _ => exact gatesApart_channelResult c v raw (gatesApart_modCh (idle c) idle)
  next => exact gatesApart_auxResult _ _ _ idle
  next => exact idle

/-! ### Requests -/

theorem gatesApart_of_ch {s t : State} (h : t.ch = s.ch) (hs : s.gatesApart) : t.gatesApart :=
  gatesApart_of_same (sameAll_of_ch h) hs

theorem gatesApart_onChannel {n : Nat} {owner : Chan → State → State × Answer} {s : State} (h : ∀ c, (owner c s).1.gatesApart)
    (hs : s.gatesApart) : (onChannel n owner s).1.gatesApart := by
  unfold onChannel
  split
  · exact hs
  · exact h _

theorem ch_ownSetLink (f : Nat × Nat) (s : State) : (ownSetLink f s).1.ch = s.ch := by
  unfold ownSetLink
  split
  · rfl
  · split_ifs <;> rfl

theorem ch_ownSleep (s : State) : (ownSleep () s).1.ch = s.ch := by
  unfold ownSleep
  split_ifs <;> rfl

theorem ch_ownStatus (f : Nat × Nat) (s : State) : (ownStatus f s).1.ch = s.ch := by
  simp only [ownStatus]
  split
  · split
    · rfl
    · split <;> rfl
  · split
    · rfl
    · split <;> rfl

theorem ch_ownRecover (s : State) : (ownRecover () s).1.ch = s.ch := by
  unfold ownRecover
  split_ifs <;> rfl

theorem ch_ownSupervise (f : Nat × Nat) (s : State) : (ownSupervise f s).1.ch = s.ch := by
  unfold ownSupervise
  split_ifs <;> rfl

theorem ch_ownHeartbeat (n : Nat) (s : State) : (ownHeartbeat n s).1.ch = s.ch := by
  unfold ownHeartbeat
  split_ifs <;> rfl

theorem ch_ownConverter (f : Levels) (s : State) : (ownConverter f s).1.ch = s.ch := by
  unfold ownConverter
  split_ifs <;> rfl

theorem ch_ownAuxPlan (f : Nat × List AuxFields) (s : State) : (ownAuxPlan f s).1.ch = s.ch := by
  unfold ownAuxPlan
  split_ifs
  · rfl
  · split <;> rfl

theorem ch_ownLimits (f : LimitFields) (s : State) : (ownLimits f s).1.ch = s.ch := by
  unfold ownLimits
  split_ifs <;> rfl

theorem gatesApart_ownCarrier (f : Nat × Nat) {s : State} (hs : s.gatesApart) : (ownCarrier f s).1.gatesApart := by
  unfold ownCarrier
  split_ifs
  · exact hs
  · exact hs
  · exact hs
  · split
    · exact hs
    · exact gatesApart_of_same ((sameAll_flushAll _).trans (sameAll_carrierRestart _)) hs

theorem gatesApart_ownSetup (f : Nat × List (Nat × Nat)) {s : State} (hs : s.gatesApart) : (ownSetup f s).1.gatesApart := by
  refine gatesApart_onChannel (fun c => ?_) hs
  split
  · exact hs
  · exact gatesApart_modCh (hs c) hs

theorem gatesApart_ownActivate (n : Nat) {s : State} (hs : s.gatesApart) : (ownActivate n s).1.gatesApart := by
  refine gatesApart_onChannel (fun c => ?_) hs
  have activated : (s.activateIdle c).gatesApart := by
    have copied := fun slot => gatesApart_modCh
      (f := fun x : Channel => { x with active := x.staged, live := none, slot := slot, state := .stopped }) (hs c) hs
    simp only [State.activateIdle]
    split
    · exact gatesApart_modCh (copied _ c) (copied _)
    · exact copied _
  simp only
  split
  · exact hs
  · split
    · exact hs
    · split_ifs
      · exact gatesApart_modCh (hs c) hs
      · exact hs
      · exact activated

theorem gatesApart_ownProfile (f : Nat × Nat × List SegmentFields) {s : State} (hs : s.gatesApart) :
    (ownProfile f s).1.gatesApart := by
  refine gatesApart_onChannel (fun c => ?_) hs
  simp only
  split_ifs
  · exact hs
  · exact hs
  · split
    · exact hs
    · exact gatesApart_modSq c _ hs

theorem gatesApart_ownCalibrate (n : Nat) {s : State} (hs : s.gatesApart) : (ownCalibrate n s).1.gatesApart := by
  refine gatesApart_onChannel (fun c => ?_) hs
  split_ifs
  · exact hs
  · exact hs
  · exact gatesApart_modCh (hs c) hs

theorem gatesApart_ownStart (f : Nat × Option StepFields) {s : State} (hs : s.gatesApart) : (ownStart f s).1.gatesApart := by
  refine gatesApart_onChannel (fun c => ?_) hs
  simp only
  split
  · exact hs
  · split
    · exact hs
    · exact hs
    · split_ifs
      · exact hs
      · exact hs
      · exact gatesApart_modCh (hs c) hs
    · split
      · exact hs
      · split
        · exact hs
        · exact gatesApart_modCh (hs c) hs

theorem gatesApart_stopCoast {s : State} (c : Chan) (hs : s.gatesApart) : (s.stopCoast c).1.gatesApart := by
  unfold State.stopCoast
  split
  case h_2 => exact gatesApart_calFailed c _ hs
  case h_1 => exact hs
  case h_3 => exact hs
  case h_4 => exact hs
  all_goals exact gatesApart_toStopped c hs

theorem gatesApart_stopBrake {s : State} (c : Chan) (hs : s.gatesApart) : (s.stopBrake c).1.gatesApart := by
  unfold State.stopBrake
  split
  case h_3 => exact gatesApart_calFailed c _ hs
  case h_1 => exact hs
  case h_2 => exact hs
  case h_4 => exact hs
  case h_5 => exact hs
  all_goals exact gatesApart_toBraking c hs

theorem gatesApart_ownStop (f : Nat × Nat) {s : State} (hs : s.gatesApart) : (ownStop f s).1.gatesApart := by
  refine gatesApart_onChannel (fun c => ?_) hs
  split
  · exact gatesApart_stopCoast c hs
  · exact gatesApart_stopBrake c hs
  · exact hs

theorem gatesApart_ownVectorSet (f : VectorFields) {s : State} (hs : s.gatesApart) : (ownVectorSet f s).1.gatesApart := by
  refine gatesApart_onChannel (fun c => ?_) hs
  simp only
  split_ifs
  · exact hs
  · exact hs
  · exact gatesApart_modCh (hs c) hs

theorem gatesApart_ownStepSet (f : StepSetFields) {s : State} (hs : s.gatesApart) : (ownStepSet f s).1.gatesApart := by
  refine gatesApart_onChannel (fun c => ?_) hs
  simp only
  split_ifs
  · exact hs
  · exact hs
  · exact gatesApart_modCh (hs c) hs

theorem gatesApart_ownClearTrip (n : Nat) {s : State} (hs : s.gatesApart) : (ownClearTrip n s).1.gatesApart := by
  refine gatesApart_onChannel (fun c => ?_) hs
  split_ifs
  · exact hs
  · exact hs
  · rw [modGates_modCh]
    exact gatesApart_modCh (gatesApart_allOff _ _ _) hs

/-! ### Every command -/

/-- A command that keeps the switches of every phase apart. -/
def KeepsApart (s : State) (o : Host.Outcome State Fault Refusal) : Prop := s.gatesApart → ∀ t, o = .next t → t.gatesApart

theorem keepsApart_next (s : State) : KeepsApart s (.next s) := by
  intro hs t ht
  cases ht
  exact hs

theorem keepsApart_done {s u : State} (h : s.gatesApart → u.gatesApart) : KeepsApart s (done u) := by
  intro hs t ht
  cases ht
  exact gatesApart_of_same (sameAll_settle u) (h hs)

theorem keepsApart_same {s u : State} (h : SameAll s u) : KeepsApart s (done u) := keepsApart_done (gatesApart_of_same h)

theorem keepsApart_ite {p : Prop} [Decidable p] {s : State} {a b : Host.Outcome State Fault Refusal} (ha : KeepsApart s a)
    (hb : KeepsApart s b) : KeepsApart s (if p then a else b) := by
  split_ifs
  · exact ha
  · exact hb

theorem keepsApart_reset {s u : State} (h : u.ch = ⟨.reset, .reset, .reset⟩) : KeepsApart s (done u) := by
  intro _ t ht c
  rw [channelsReset_of_done h ht c]
  exact gatesApart_of_topsOff fun x => by cases x <;> exact ⟨rfl, rfl⟩

/-- The link's part of a request touches no channel; the rest is the owner's. -/
theorem keepsApart_takeRequest {α : Type} {type tag : Byte} {pl : Bool} {fields : Option α} {owner : α → State → State × Answer}
    {s : State} (h : ∀ a, s.gatesApart → (owner a s).1.gatesApart) : KeepsApart s (takeRequest type tag pl fields owner s) := by
  intro hs t ht
  have replied : ∀ (u : State) (a : Answer), u.gatesApart → (u.replied type tag a).gatesApart := by
    intro u a
    rw [State.replied_eq]
    exact id
  rcases takeRequest_cases type tag pl fields owner s with ⟨_, h'⟩ | ⟨_, _, h'⟩ | ⟨a, _, _, _, _, h'⟩ | ⟨a, _, _, _, h'⟩ <;>
    rw [h'] at ht <;> cases ht
  · exact hs
  · exact replied _ _ hs
  · exact replied _ _ hs
  · exact replied _ _ (h a hs)

theorem keepsApart_request {α : Type} {type tag : Byte} {pl : Bool} {fields : Option α} {owner : α → State → State × Answer}
    {s : State} (h : ∀ a, (owner a s).1.ch = s.ch) : KeepsApart s (takeRequest type tag pl fields owner s) :=
  keepsApart_takeRequest fun a => gatesApart_of_ch (h a)

/-! The period events and the examinations. -/

theorem keepsApart_execMasterPeriodStart (s : State) : KeepsApart s (execMasterPeriodStart s) :=
  keepsApart_ite (keepsApart_same ((sameAll_waitUntil _ _).trans (sameAll_masterWork _))) (keepsApart_next s)

theorem keepsApart_execChannelPeriodStart (c : Chan) (s : State) : KeepsApart s (execChannelPeriodStart c s) := by
  unfold execChannelPeriodStart
  split
  · exact keepsApart_done fun hs => gatesApart_periodWork c _ _ (gatesApart_waitUntil _ hs)
  · exact keepsApart_next s

theorem keepsApart_execPeriodReport (c : Chan) (s : State) : KeepsApart s (execPeriodReport c s) := by
  simp only [execPeriodReport]
  split
  · split_ifs
    · exact keepsApart_same (sameAll_emitReport _ _ _)
    · exact keepsApart_next s
  · exact keepsApart_next s

/-! The events of a channel. -/

theorem keepsApart_execHalfPeriodPoint (c : Chan) (s : State) : KeepsApart s (execHalfPeriodPoint c s) := by
  unfold execHalfPeriodPoint
  split
  · refine keepsApart_done fun hs => ?_
    have waited := fun t => gatesApart_waitUntil t hs
    exact gatesApart_applyCompare c _ _ (gatesApart_modCh (waited _ c) (waited _))
  · exact keepsApart_next s

theorem keepsApart_execCommutationDue (c : Chan) (s : State) : KeepsApart s (execCommutationDue c s) := by
  unfold execCommutationDue
  split
  · split_ifs
    · exact keepsApart_next s
    · exact keepsApart_same ((sameAll_waitUntil _ _).trans (sameAll_modSq _ _ _))
  · exact keepsApart_next s

theorem keepsApart_execHandover (c : Chan) (tzc : Time) (s : State) : KeepsApart s (execHandover c tzc s) :=
  keepsApart_ite (keepsApart_done (gatesApart_rampCrossing c tzc false)) (keepsApart_next s)

theorem keepsApart_execGateEdge (c : Chan) (x : Phase) (s : State) : KeepsApart s (execGateEdge c x s) := by
  simp only [execGateEdge]
  split
  · split
    · exact keepsApart_next s
    · refine keepsApart_done fun hs => ?_
      have waited := fun t => gatesApart_waitUntil t hs
      exact gatesApart_modCh (GatesApart.set x (waited _ c) (PhaseApart.meetEdge _ _ _ _ _ _ (waited _ c x))) (waited _)
  · exact keepsApart_next s

theorem keepsApart_execPendingTurnOn (c : Chan) (x : Phase) (side : Side) (s : State) :
    KeepsApart s (execPendingTurnOn c x side s) := by
  unfold execPendingTurnOn
  split
  · refine keepsApart_done fun hs => ?_
    have waited := fun t => gatesApart_waitUntil t hs
    exact gatesApart_modCh (GatesApart.set x (waited _ c) (PhaseApart.turnOn side _ (waited _ c x))) (waited _)
  · exact keepsApart_next s

theorem keepsApart_execFaultInputAssertion (c : Chan) (s : State) : KeepsApart s (execFaultInputAssertion c s) :=
  keepsApart_ite (keepsApart_done fun hs => gatesApart_faultAsserted c (gatesApart_modProt _ (gatesApart_modProt _ hs)))
    (keepsApart_done (gatesApart_modProt _))

theorem keepsApart_execFaultInputRelease (c : Chan) (s : State) : KeepsApart s (execFaultInputRelease c s) :=
  keepsApart_ite (keepsApart_done fun hs => gatesApart_modProt _ (gatesApart_modProt _ hs))
    (keepsApart_done (gatesApart_modProt _))

/-! The converter's events. -/

theorem keepsApart_execConversionStart (s : State) : KeepsApart s (execConversionStart s) := by
  have waited : ∀ (b : Bool) (t : Time), SameAll s (if b then s else s.waitUntil t) := by
    intro b t
    split_ifs
    · exact .refl s
    · exact sameAll_waitUntil s t
  simp only [execConversionStart]
  split
  · split
    · exact keepsApart_same ((waited _ _).trans (sameAll_of_ch rfl))
    · exact keepsApart_next s
  · exact keepsApart_next s

theorem keepsApart_execConversionComplete (raw : BitVec 12) (s : State) : KeepsApart s (execConversionComplete raw s) := by
  unfold execConversionComplete
  split
  · exact keepsApart_done fun hs => gatesApart_completeConversion _ _ (gatesApart_elapse _ hs)
  · exact keepsApart_next s

theorem gatesApart_removeLate {s : State} (c : Chan) (e : Entry) (hs : s.gatesApart) : (s.removeLate c e).gatesApart :=
  gatesApart_of_same (sameAll_modRb _ c _) (gatesApart_modCh (hs c) hs)

theorem keepsApart_execLate (slot : Nat) (s : State) : KeepsApart s (execLate slot s) := by
  unfold execLate
  split
  · split
    · exact keepsApart_done fun hs => gatesApart_removeLate _ _ (gatesApart_waitUntil _ hs)
    · exact keepsApart_next s
  · exact keepsApart_next s

/-! The events of the device and the link. -/

theorem gatesApart_endStartUp {s : State} (hs : s.gatesApart) : s.endStartUp.gatesApart :=
  gatesApart_sampleFaults (gatesApart_queueEvent _ _ _ (gatesApart_of_same (sameAll_carrierRestart _) hs))

theorem gatesApart_wakeNow {s : State} (hs : s.gatesApart) : s.wakeNow.gatesApart := by
  unfold State.wakeNow
  exact gatesApart_sampleFaults (gatesApart_of_same (sameAll_carrierRestart _)
    (gatesApart_of_ch (Modulation.ch_transmitAgain _) hs))

theorem sameAll_frameGone_quiet (s : State) : SameAll s s.quietEntryNow.enterGap :=
  (sameAll_quietEntryNow s).trans (sameAll_enterGap _)

theorem sameAll_frameGone_link (s : State) (r : Rate) (gap : Nat) : SameAll s (s.linkInForce r gap).enterGap :=
  (sameAll_linkInForce s r gap).trans (sameAll_enterGap _)

theorem keepsApart_execMessageReset (s : State) : KeepsApart s (execMessageReset s) := by
  unfold execMessageReset
  split
  · exact keepsApart_reset rfl
  · exact keepsApart_next s

theorem keepsApart_execFrameSent (s : State) : KeepsApart s (execFrameSent s) := by
  unfold execFrameSent
  split
  next e left _ =>
    have elapsed := sameAll_elapse s left
    cases e with
    | nothing => exact keepsApart_same (elapsed.trans (sameAll_enterGap _))
    | messageReset => exact keepsApart_reset rfl
    | quietEntry => exact keepsApart_same (elapsed.trans (sameAll_frameGone_quiet _))
    | setLink r gap => exact keepsApart_same (elapsed.trans (sameAll_frameGone_link _ r gap))
  next => exact keepsApart_next s

theorem keepsApart_execSetLinkInForce (s : State) : KeepsApart s (execSetLinkInForce s) := by
  unfold execSetLinkInForce
  split
  · exact keepsApart_same ((sameAll_elapse s _).trans (sameAll_frameGone_link _ _ _))
  · exact keepsApart_next s

theorem keepsApart_execQuietEntry (s : State) : KeepsApart s (execQuietEntry s) := by
  unfold execQuietEntry
  split
  · exact keepsApart_same ((sameAll_elapse s _).trans (sameAll_frameGone_quiet _))
  · exact keepsApart_next s

theorem keepsApart_execGapEnd (s : State) : KeepsApart s (execGapEnd s) := by
  unfold execGapEnd
  split
  · exact keepsApart_same ((sameAll_elapse s _).trans (sameAll_of_ch rfl))
  · exact keepsApart_next s

theorem keepsApart_execStartUpEnd (s : State) : KeepsApart s (execStartUpEnd s) := by
  unfold execStartUpEnd
  split
  · exact keepsApart_done fun hs => gatesApart_endStartUp (gatesApart_elapse _ hs)
  · exact keepsApart_next s

theorem keepsApart_execWakeComplete (s : State) : KeepsApart s (execWakeComplete s) := by
  unfold execWakeComplete
  split
  · exact keepsApart_done fun hs => gatesApart_wakeNow (gatesApart_elapse _ hs)
  · exact keepsApart_next s

theorem keepsApart_execResetRelease (s : State) : KeepsApart s (execResetRelease s) :=
  keepsApart_ite (keepsApart_same (sameAll_of_ch rfl)) (keepsApart_next s)

theorem keepsApart_execSlowStep (s : State) : KeepsApart s (execSlowStep s) :=
  keepsApart_ite (keepsApart_done fun hs => gatesApart_expiryStep (gatesApart_heartbeatStep (s := s.modSup _) hs))
    (keepsApart_next s)

theorem keepsApart_execWindowExpiry (s : State) : KeepsApart s (execWindowExpiry s) :=
  keepsApart_ite (keepsApart_done gatesApart_expiryStep) (keepsApart_next s)

theorem keepsApart_execCharacterArrival (char : Byte) (fe : Bool) (s : State) :
    KeepsApart s (execCharacterArrival char fe s) := by
  unfold execCharacterArrival
  split_ifs
  · exact keepsApart_next s
  · exact keepsApart_same ((sameAll_queueEvent _ _ _ _).trans (sameAll_receive _ _ _))
  · exact keepsApart_same ((sameAll_wakeBegins _ _).trans (sameAll_receive _ _ _))
  · exact keepsApart_next s

theorem keepsApart_execFrameTimeout (s : State) : KeepsApart s (execFrameTimeout s) :=
  keepsApart_ite
    (keepsApart_same (((sameAll_elapse s s.link.rxLeft).trans (sameAll_queueEvent _ _ _ _)).trans (sameAll_receive _ _ _)))
    (keepsApart_next s)

theorem keepsApart_execUnknownType (type tag : Byte) (p : List Byte) (s : State) : KeepsApart s (execUnknownType type tag p s) :=
  keepsApart_ite (keepsApart_next s) (keepsApart_same (sameAll_of_ch rfl))

theorem exec_keepsApart (i : Instr) (s : State) : KeepsApart s (exec i s) := by
  cases i with
  | ident tag p => exact keepsApart_request (owner := ownIdent) fun _ => rfl
  | setLink tag p => exact keepsApart_request (ch_ownSetLink · s)
  | setLinkInForce => exact keepsApart_execSetLinkInForce s
  | reset tag p => exact keepsApart_request (owner := ownReset) fun _ => rfl
  | messageReset => exact keepsApart_execMessageReset s
  | sleep tag p => exact keepsApart_request fun _ => ch_ownSleep s
  | quietEntry => exact keepsApart_execQuietEntry s
  | deviceStatus tag p => exact keepsApart_request (ch_ownStatus · s)
  | channelStatus tag p => exact keepsApart_request (ch_ownStatus · s)
  | recover tag p => exact keepsApart_request fun _ => ch_ownRecover s
  | supervise tag p => exact keepsApart_request (ch_ownSupervise · s)
  | heartbeat tag p => exact keepsApart_request (ch_ownHeartbeat · s)
  | carrier tag p => exact keepsApart_takeRequest fun f => gatesApart_ownCarrier f
  | converter tag p => exact keepsApart_request (ch_ownConverter · s)
  | auxPlan tag p => exact keepsApart_request (ch_ownAuxPlan · s)
  | limits tag p => exact keepsApart_request (ch_ownLimits · s)
  | channelSetup tag p => exact keepsApart_takeRequest fun f => gatesApart_ownSetup f
  | activate tag p => exact keepsApart_takeRequest fun n => gatesApart_ownActivate n
  | profile tag p => exact keepsApart_takeRequest fun f => gatesApart_ownProfile f
  | calibrate tag p => exact keepsApart_takeRequest fun n => gatesApart_ownCalibrate n
  | start tag p => exact keepsApart_takeRequest fun f => gatesApart_ownStart f
  | stopCoast tag p => exact keepsApart_takeRequest fun f => gatesApart_ownStop f
  | stopBrake tag p => exact keepsApart_takeRequest fun f => gatesApart_ownStop f
  | vectorSet tag p => exact keepsApart_takeRequest fun f => gatesApart_ownVectorSet f
  | stepSet tag p => exact keepsApart_takeRequest fun f => gatesApart_ownStepSet f
  | clearTrip tag p => exact keepsApart_takeRequest fun n => gatesApart_ownClearTrip n
  | unknownType type tag p => exact keepsApart_execUnknownType type tag p s
  | powerOnReset v => exact keepsApart_reset rfl
  | pinReset => exact keepsApart_reset rfl
  | startUpEnd => exact keepsApart_execStartUpEnd s
  | masterPeriodStart => exact keepsApart_execMasterPeriodStart s
  | busStale => exact keepsApart_same (sameAll_busStaleStep s)
  | channelPeriodStart c => exact keepsApart_execChannelPeriodStart c s
  | stale c => exact keepsApart_same (sameAll_staleWarn s c)
  | staleTrip c => exact keepsApart_done (gatesApart_staleTripStep c)
  | calTimeout c => exact keepsApart_done (gatesApart_calTimeoutStep c)
  | halfPeriodPoint c => exact keepsApart_execHalfPeriodPoint c s
  | lostSync c => exact keepsApart_done (gatesApart_lostSyncStep c)
  | commutationDue c => exact keepsApart_execCommutationDue c s
  | gateEdge c x => exact keepsApart_execGateEdge c x s
  | pendingTurnOn c x side => exact keepsApart_execPendingTurnOn c x side s
  | conversionStart => exact keepsApart_execConversionStart s
  | conversionComplete raw => exact keepsApart_execConversionComplete raw s
  | calDone c => exact keepsApart_done (gatesApart_calDoneStep c)
  | handover c tzc => exact keepsApart_execHandover c tzc s
  | late slot => exact keepsApart_execLate slot s
  | currentLimit c => exact keepsApart_done (gatesApart_limitStep c _)
  | periodReport c => exact keepsApart_execPeriodReport c s
  | faultInputAssertion c => exact keepsApart_execFaultInputAssertion c s
  | faultInputRelease c => exact keepsApart_execFaultInputRelease c s
  | slowStep => exact keepsApart_execSlowStep s
  | windowExpiry => exact keepsApart_execWindowExpiry s
  | characterArrival char fe => exact keepsApart_execCharacterArrival char fe s
  | wakeComplete => exact keepsApart_execWakeComplete s
  | frameTimeout => exact keepsApart_execFrameTimeout s
  | frameSent => exact keepsApart_execFrameSent s
  | gapEnd => exact keepsApart_execGapEnd s
  | resetRelease => exact keepsApart_execResetRelease s

/-- Settles O4: a step is a command, which `exec_keepsApart` speaks of, or the idle step, which switches nothing. -/
theorem gatesStayApart : Obligations.GatesStayApart := by
  intro s t hs h
  unfold step at h
  split at h
  next i rest _ => exact exec_keepsApart i { s with pending := rest } hs t h
  next =>
    cases h
    exact gatesApart_of_same (sameAll_idle s) hs

/-! ### Boundaries and turn-ons (R63 to R65, R67) -/

theorem waitUntil_reached {s : State} {t : Time} (h : later t s.tb.now = false) : s.waitUntil t = s := by
  rcases s.waitUntil_cases t with ⟨_, hw⟩ | ⟨hl, _⟩
  · exact hw
  · exact absurd (h.symm.trans hl) Bool.false_ne_true

theorem nextEdge_vector {p : Plan} {v : VectorPlan} (hb : p.body = .vector v) (h : Nat) (x : Phase) (edges : Nat) :
    p.nextEdge h x edges = if edges = 0 then some (v.up.get x) else if edges = 1 then some (2 * h - v.dn.get x) else none := by
  simp [Plan.nextEdge, Plan.topInterval, hb]

theorem nextEdge_step {p : Plan} {t : StepPlan} (hb : p.body = .step t) (h edges : Nat) :
    p.nextEdge h (highPhase t.index) edges =
      if edges = 0 then some t.cmp.c else if edges = 1 then some (2 * h - t.cmp.c) else none := by
  simp [Plan.nextEdge, Plan.topInterval, hb]

/-- A boundary that has been reached is met on its phase. -/
theorem execGateEdge_reached {c : Chan} {x : Phase} {s : State} {p : Plan} {t0 : Time} {n : Nat} (hr : s.clockRuns = true)
    (hp : (s.chan c).curPlan = some p) (ht : (s.chan c).latest = some t0)
    (hn : p.nextEdge s.tb.h x ((s.chan c).gates.get x).edges = some n) (hl : later (addTicks t0 n) s.tb.now = false) :
    execGateEdge c x s =
      .next (s.modCh c fun k => { k with
        gates := k.gates.set x (((s.chan c).gates.get x).meetEdge p (s.chan c).nextPlan x s.tb.h s.tb.d s.tb.now) }).settle := by
  simp only [execGateEdge, hr, hp, ht, hn, waitUntil_reached hl, done_eq]
  rfl

/-- A pending turn-on that has been reached is taken on its phase. -/
theorem execPendingTurnOn_reached {c : Chan} {x : Phase} {side : Side} {s : State} {at' : Time} (hr : s.clockRuns = true)
    (hp : ((s.chan c).gates.get x).pend side = some at') (hl : later at' s.tb.now = false) :
    ∃ u, execPendingTurnOn c x side s = .next u ∧ s.sameChannelsBut u c ∧
      (u.chan c).gates.get x = ((s.chan c).gates.get x).turnOn side s.tb.now := by
  refine ⟨(s.modGates c fun g => g.set x ((g.get x).turnOn side s.tb.now)).settle, ?_, fun y hy => ?_, ?_⟩
  · simp only [execPendingTurnOn, hr, hp, waitUntil_reached hl, done_eq]
  · rw [State.chan_settle]
    exact State.chan_modCh_other _ _ hy
  · rw [State.chan_settle, State.chan_modGates_same, PerPhase.get_set_same]

/-! What a turn-on does, by the complementary switch and its dead time (log 31). -/

theorem deadTimeOver_iff (now : Time) (off : Option TurnOff) :
    deadTimeOver now off = true ↔ ∀ o, off = some o → o.d ≤ ticksSince now o.time := by
  cases off <;> simp [deadTimeOver]

theorem turnOn_top_over {g : PhaseGate} {now : Time} (hb : g.bottom = false)
    (ho : ∀ o, g.bottomOff = some o → o.d ≤ ticksSince now o.time) :
    g.turnOn .top now = { g with top := true, topPend := none } := by
  simp [PhaseGate.turnOn, hb, (deadTimeOver_iff now g.bottomOff).2 ho]

theorem turnOn_bottom_over {g : PhaseGate} {now : Time} (ht : g.top = false)
    (ho : ∀ o, g.topOff = some o → o.d ≤ ticksSince now o.time) :
    g.turnOn .bottom now = { g with bottom := true, bottomPend := none } := by
  simp [PhaseGate.turnOn, ht, (deadTimeOver_iff now g.topOff).2 ho]

theorem turnOn_top_blocked {g : PhaseGate} (now : Time) (hb : g.bottom = true) :
    g.turnOn .top now = { g with topPend := none } := if_pos hb

theorem turnOn_bottom_blocked {g : PhaseGate} (now : Time) (ht : g.top = true) :
    g.turnOn .bottom now = { g with bottomPend := none } := if_pos ht

theorem turnOn_top_waits {g : PhaseGate} {now : Time} {o : TurnOff} (hb : g.bottom = false) (ho : g.bottomOff = some o)
    (hd : ticksSince now o.time < o.d) : g.turnOn .top now = { g with topPend := some (addTicks o.time o.d) } := by
  simp [PhaseGate.turnOn, hb, ho, deadTimeOver, Nat.not_le.2 hd, TurnOff.over]

theorem turnOn_bottom_waits {g : PhaseGate} {now : Time} {o : TurnOff} (ht : g.top = false) (ho : g.topOff = some o)
    (hd : ticksSince now o.time < o.d) : g.turnOn .bottom now = { g with bottomPend := some (addTicks o.time o.d) } := by
  simp [PhaseGate.turnOn, ht, ho, deadTimeOver, Nat.not_le.2 hd, TurnOff.over]

/-- Settles O54: a boundary is met as `PhaseGate.meetEdge_edgeMet` says, and a turn-on goes by the complementary switch. -/
theorem gateEdgesKeepDeadTime : Obligations.GateEdgesKeepDeadTime := by
  refine ⟨fun c x s p t0 n hr hp ht hedge hl => ?_, fun c x s at' hr hl => ?_⟩
  · have hn : p.nextEdge s.tb.h x ((s.chan c).gates.get x).edges = some n := by
      rcases hedge with ⟨v, hb, ⟨he, rfl⟩ | ⟨he, rfl⟩⟩ | ⟨t, hb, rfl, ⟨he, rfl⟩ | ⟨he, rfl⟩⟩
      · rw [nextEdge_vector hb, he]; rfl
      · rw [nextEdge_vector hb, he]; rfl
      · rw [nextEdge_step hb, he]; rfl
      · rw [nextEdge_step hb, he]; rfl
    exact ⟨_, PhaseGate.meetEdge_edgeMet _ _ _ _ _ _ _, execGateEdge_reached hr hp ht hn hl⟩
  · have reached : ∀ {side g}, ((s.chan c).gates.get x).pend side = some at' → ((s.chan c).gates.get x).turnOn side s.tb.now = g →
        ∃ u, exec (.pendingTurnOn c x side) s = .next u ∧ s.sameChannelsBut u c ∧ (u.chan c).gates.get x = g := by
      rintro side _ hpend rfl
      exact execPendingTurnOn_reached hr hpend hl
    exact ⟨fun hpend hb ho => reached hpend (turnOn_top_over hb ho),
      fun hpend ht ho => reached hpend (turnOn_bottom_over ht ho),
      fun hpend => ⟨fun hb => reached hpend (turnOn_top_blocked _ hb),
        fun o hb ho hd => reached hpend (turnOn_top_waits hb ho hd)⟩,
      fun hpend => ⟨fun ht => reached hpend (turnOn_bottom_blocked _ ht),
        fun o ht ho hd => reached hpend (turnOn_bottom_waits ht ho hd)⟩⟩

/-! ### The start and the expiry of a request (R108, R109, R112, R113) -/

/-- With the converter idle the arbiter's choice among the due entries starts. -/
theorem execConversionStart_chosen {s : State} {e : Entry} (hr : s.clockRuns = true) (hc : s.sched.conv = none)
    (he : arbiter (s.sched.timeline.filter (fun x => notBefore s.tb.now x.due)) = some e) :
    execConversionStart s = .next (s.startConversion e).settle := by
  obtain ⟨hmem, hdue⟩ := List.mem_filter.1 (arbiter_mem he)
  have hany : s.sched.timeline.any (·.isDue s.tb.now) = true := List.any_eq_true.2 ⟨e, hmem, hdue⟩
  have hchoice : arbiter (s.sched.timeline.filter (·.isDue s.tb.now)) = some e := he
  obtain ⟨first, rest, htl⟩ := List.exists_cons_of_ne_nil (List.ne_nil_of_mem hmem)
  simp only [execConversionStart, hr, hc, htl]
  rw [← htl, if_pos hany]
  simp only [hchoice, done_eq]

/-! The input of an entry (R101). -/

theorem inputOf_shunt {s : State} {e : Entry} {c : Chan} (ho : e.owner = .chan c)
    (hp : e.purpose = .shuntA ∨ e.purpose = .shuntB ∨ e.purpose = .cal) : s.inputOf e = chanCode c - 1 := by
  unfold State.inputOf
  rcases hp with hp | hp | hp <;> rw [ho, hp]

theorem inputOf_aux {s : State} {e : Entry} {i : Nat} {a : AuxSource} (ho : e.owner = .aux i) (hp : e.purpose = .aux a) :
    s.inputOf e = 12 + a.code := by
  unfold State.inputOf
  rw [ho, hp]

/-- A channel's entry whose expiry instant has been reached is removed as LATE. -/
theorem execLate_expired {s : State} {slot tol : Nat} {c : Chan} {e : Entry} (hr : s.clockRuns = true)
    (hf : s.sched.timeline.find? (fun x => x.slot == slot) = some e) (ho : e.owner = .chan c) (ht : e.tol = some tol)
    (hl : later (addTicks e.due tol) s.tb.now = false) : execLate slot s = .next (s.removeLate c e).settle := by
  have hexp : e.expiry = some (addTicks e.due tol) := by simp only [Entry.expiry, ho, ht]
  simp only [execLate, hr, hf, ho, hexp, waitUntil_reached hl, done_eq]

/-- The channel of a removed entry: its late count and its working record. -/
theorem chan_removeLate_same (s : State) (c : Chan) (e : Entry) :
    (s.removeLate c e).chan c =
      { s.chan c with
        late := (s.chan c).late + 1
        rb := (s.chan c).rb.record e.seq (fun w => w.setPlace e.purpose .late) } := by
  unfold State.removeLate
  rw [State.chan_modRb_same, State.chan_modCh_same, State.chan_modSched]

theorem chan_removeLate_other (s : State) {c x : Chan} (e : Entry) (h : x ≠ c) : (s.removeLate c e).chan x = s.chan x := by
  unfold State.removeLate State.modRb
  rw [State.chan_modCh_other _ _ h, State.chan_modCh_other _ _ h, State.chan_modSched]

/-! An outcome at its place in the working record (R125). -/

theorem record_none {r : Rebuilder} (seq : Seq) (f : WorkRecord → WorkRecord) (h : r.work = none) : r.record seq f = r := by
  obtain ⟨_, _, work, _, _⟩ := r
  cases h
  rfl

theorem record_some {r : Rebuilder} {w : WorkRecord} (seq : Seq) (f : WorkRecord → WorkRecord) (h : r.work = some w) :
    r.record seq f = { r with work := some (if w.plan.seq = seq then f w else w) } := by
  simp [Rebuilder.record, h]

/-- Settles O55: the start is `State.startConversion` of the arbiter's choice, the expiry `State.removeLate`. -/
theorem conversionStartsOrTheEntryIsLate : Obligations.ConversionStartsOrTheEntryIsLate := by
  refine ⟨fun s e hr hc he => ?_, fun s slot tol c e hr hf ho ht hl => ?_⟩
  · refine ⟨s.inputOf e, execConversionStart_chosen hr hc he, fun c ho => ⟨fun hp => ?_, fun hp => ?_⟩, fun i a ho hp => ?_⟩
    · rw [inputOf_shunt ho hp]
      cases c <;> rfl
    · unfold State.inputOf
      rw [ho, hp]
      cases c <;> rfl
    · rw [inputOf_aux ho hp]
      cases a <;> rfl
  · have chan : (s.removeLate c e).settle.chan c = _ := (State.chan_settle _ c).trans (chan_removeLate_same s c e)
    refine ⟨_, execLate_expired hr hf ho ht hl, ?_, ?_, fun x hx => ?_, ?_, ?_, ?_, ?_, ?_, fun hw => ?_, fun w hw => ?_⟩
    · rw [State.settle_sched]; rfl
    · rw [State.settle_sched]; rfl
    · rw [State.chan_settle, chan_removeLate_other s e hx]
    all_goals rw [chan]
    · exact record_none _ _ hw
    · simp only [record_some _ _ hw]
      refine ⟨fun h => ?_, fun hs => ⟨fun hp => ?_, fun hp => ?_⟩⟩
      · rcases h with hs | hp
        · rw [if_neg hs]
        · rw [hp]
          exact congrArg (fun x => { (s.chan c).rb with work := some x }) (ite_self w)
      · rw [if_pos hs, hp]; rfl
      · rcases hp with hp | hp <;> rw [if_pos hs, hp] <;> rfl

end Sys2Proof.Edges

/-!
The step channels' side of the manual (ch.5): STEP_SET and PROFILE, closed-loop timing (R93 to R95), what a crossing in RAMP does, the
handover, and the course of a sense result from its conversion to the sequencer.
-/

namespace Sys2Proof.SixStep

open Sys2Proof Sys2Proof.Machine Sys2Proof.Motor

/-! ### STEP_SET (R34, R77) -/

theorem stepSet_owner (tag : Byte) {p : List Byte} {f : StepSetFields} {s : State} (hs : s.takes) (hp : readStepSet p = some f) :
    exec (.stepSet tag p) s = .next ((ownStepSet f s).1.replied 0x27 tag (ownStepSet f s).2) := by
  rw [← takeRequest_taken _ _ false _ _ _ hs, ← hp]
  rfl

theorem ownStepSet_unconfigured {s : State} {c : Chan} (d : Nat) (adv : Option Nat)
    (hst : (s.chan c).state = .unconfigured) : ownStepSet ⟨chanCode c, d, adv⟩ s = (s, wrongState) := by
  simp [ownStepSet, hst]

theorem ownStepSet_vector {s : State} {c : Chan} (d : Nat) (adv : Option Nat) (hst : (s.chan c).state ≠ .unconfigured)
    (hk : (s.chan c).active.kind = .vector) : ownStepSet ⟨chanCode c, d, adv⟩ s = (s, conflict c) := by
  simp [ownStepSet, hst, hk]

theorem min_duty_ne_iff (ceiling d : Nat) : min ceiling d ≠ d ↔ ceiling < d := by omega

/-- An advance is limited exactly where it is given and lies above 31. -/
theorem map_min_advance_ne_iff (adv : Option Nat) : adv.map (min 31) ≠ adv ↔ ∃ n, adv = some n ∧ 31 < n := by
  cases adv with
  | none => simp
  | some n => simp

/-- An accepted STEP_SET, in the words of R77. -/
theorem ownStepSet_accepted {s : State} {c : Chan} (d : Nat) (adv : Option Nat) (hst : (s.chan c).state ≠ .unconfigured)
    (hk : (s.chan c).active.kind ≠ .vector) :
    ownStepSet ⟨chanCode c, d, adv⟩ s =
      (s.modCh c (fun k =>
        { k with
          slot := some (.step (min k.active.ceiling d) (adv.map (min 31)))
          superseded := if k.slot = none then k.superseded else min 65535 (k.superseded + 1) }),
        { code := if (s.chan c).active.ceiling < d ∨ (∃ n, adv = some n ∧ 31 < n) then .clamped else .ok }) := by
  have limited : (min (s.chan c).active.ceiling d != d || adv.map (min 31) != adv) =
      decide ((s.chan c).active.ceiling < d ∨ ∃ n, adv = some n ∧ 31 < n) := by
    rw [Bool.eq_iff_iff, Bool.or_eq_true, bne_iff_ne, bne_iff_ne, min_duty_ne_iff, map_min_advance_ne_iff, decide_eq_true_eq]
  simp only [ownStepSet, onChannel_chanCode, hst, hk, if_false, limited, setpointAnswer, decide_eq_true_eq]
  exact congrArg (·, _) (modCh_congr (Modulation.store_eq _ _))

/-- Settles O41, by R77's checks in order. -/
theorem stepSetStoresTheLimitedSetpoint : Obligations.StepSetStoresTheLimitedSetpoint := by
  intro tag p c d adv s hs hp
  rw [stepSet_owner tag hs hp]
  by_cases hst : (s.chan c).state = .unconfigured
  · rw [if_pos hst, ownStepSet_unconfigured _ _ hst]
    rfl
  rw [if_neg hst]
  by_cases hk : (s.chan c).active.kind = .vector
  · rw [if_pos hk, ownStepSet_vector _ _ hst hk]
    rfl
  rw [if_neg hk, ownStepSet_accepted d adv hst hk]

/-! ### PROFILE (R80) -/

/-- A segment whose fields pass R80's checks. -/
def GoodSegment (g : SegmentFields) : Prop :=
  g.kind ≤ 1 ∧ 5 ≤ g.t0 ∧ g.t0 ≤ 10000 ∧ 1 ≤ g.repeats ∧ (g.t1 ≠ 0 → 5 ≤ g.t1 ∧ g.t1 ≤ 10000 ∧ g.kind = 1)

/-! The first failing field of a list by its first segment, in the order of R80's checks. -/

theorem segmentFailing_of_good {g : SegmentFields} (i : Nat) (gs : List SegmentFields) (h : GoodSegment g) :
    segmentFailing i (g :: gs) = segmentFailing (i + 1) gs := by
  obtain ⟨hk, h5, ht, hr, h1⟩ := h
  rw [segmentFailing, if_neg (by omega), if_neg (by omega), if_neg (by omega), if_neg (by omega), if_neg (by omega)]

theorem segmentFailing_of_kind {g : SegmentFields} (i : Nat) (gs : List SegmentFields) (h : 1 < g.kind) :
    segmentFailing i (g :: gs) = some (3 + 5 * i) := by
  rw [segmentFailing, if_pos h]

theorem segmentFailing_of_t0 {g : SegmentFields} (i : Nat) (gs : List SegmentFields) (hk : g.kind ≤ 1)
    (h : g.t0 < 5 ∨ 10000 < g.t0) : segmentFailing i (g :: gs) = some (5 + 5 * i) := by
  rw [segmentFailing, if_neg (by omega), if_pos h]

theorem segmentFailing_of_repeats {g : SegmentFields} (i : Nat) (gs : List SegmentFields) (hk : g.kind ≤ 1) (h5 : 5 ≤ g.t0)
    (ht : g.t0 ≤ 10000) (h : g.repeats = 0) : segmentFailing i (g :: gs) = some (6 + 5 * i) := by
  rw [segmentFailing, if_neg (by omega), if_neg (by omega), if_pos (by omega)]

theorem segmentFailing_of_t1 {g : SegmentFields} (i : Nat) (gs : List SegmentFields) (hk : g.kind ≤ 1) (h5 : 5 ≤ g.t0)
    (ht : g.t0 ≤ 10000) (hr : 1 ≤ g.repeats) (h1 : g.t1 ≠ 0) (h : g.t1 < 5 ∨ 10000 < g.t1 ∨ g.kind = 0) :
    segmentFailing i (g :: gs) = some (7 + 5 * i) := by
  rw [segmentFailing, if_neg (by omega), if_neg (by omega), if_neg (by omega)]
  split_ifs
  · rfl
  · rfl
  · omega

/-- Good segments are passed over (R80). -/
theorem segmentFailing_after_good {l : List SegmentFields} {n : Nat} {g : SegmentFields} (i : Nat) (hn : l[n]? = some g)
    (h : ∀ j x, j < n → l[j]? = some x → GoodSegment x) :
    segmentFailing i l = segmentFailing (i + n) (g :: l.drop (n + 1)) := by
  induction l generalizing i n with
  | nil => cases hn
  | cons x xs ih =>
    cases n with
    | zero => cases hn; rfl
    | succ n =>
      rw [segmentFailing_of_good i xs (h 0 x n.succ_pos rfl), ih (i + 1) hn fun j y hj => h (j + 1) y (Nat.succ_lt_succ hj),
        Nat.add_right_comm, List.drop_succ_cons, Nat.add_assoc]

theorem segmentFailing_of_all_good {l : List SegmentFields} (i : Nat) (h : ∀ g ∈ l, GoodSegment g) :
    segmentFailing i l = none := by
  induction l generalizing i with
  | nil => rfl
  | cons x xs ih =>
    obtain ⟨hx, hxs⟩ := List.forall_mem_cons.1 h
    rw [segmentFailing_of_good i xs hx, ih (i + 1) hxs]

/-! What the writing of segments does to the sixteen places. -/

@[simp] theorem length_writeSegments (profile : List (Option Segment)) (i : Nat) (l : List SegmentFields) :
    (writeSegments profile i l).length = profile.length := by
  induction l generalizing profile i with
  | nil => rfl
  | cons g gs ih => rw [writeSegments, ih, List.length_set]

theorem getElem?_writeSegments_outside (profile : List (Option Segment)) {i j : Nat} {l : List SegmentFields}
    (h : j < i ∨ i + l.length ≤ j) : (writeSegments profile i l)[j]? = profile[j]? := by
  induction l generalizing profile i with
  | nil => rfl
  | cons g gs ih =>
    rw [List.length_cons] at h
    rw [writeSegments, ih _ (by omega), List.getElem?_set_ne (by omega)]

theorem getElem?_writeSegments_inside {profile : List (Option Segment)} {i n : Nat} {l : List SegmentFields} {g : SegmentFields}
    (hfit : i + l.length ≤ profile.length) (hn : l[n]? = some g) :
    (writeSegments profile i l)[i + n]? = some (some g.segment) := by
  induction l generalizing profile i n with
  | nil => cases hn
  | cons x xs ih =>
    rw [List.length_cons] at hfit
    cases n with
    | zero =>
      cases hn
      change (writeSegments profile i (g :: xs))[i]? = _
      rw [writeSegments, getElem?_writeSegments_outside _ (.inl (Nat.lt_succ_self i)), List.getElem?_set_self (by omega)]
    | succ n =>
      rw [writeSegments, show i + (n + 1) = i + 1 + n by omega]
      exact ih (by rw [List.length_set]; omega) hn

/-! PROFILE by its checks. -/

theorem profile_owner (tag : Byte) {p : List Byte} {c : Chan} {st : Nat} {l : List SegmentFields} {s : State} (hs : s.takes)
    (hp : readProfile p = some (chanCode c, st, l)) :
    exec (.profile tag p) s =
      .next ((ownProfile (chanCode c, st, l) s).1.replied 0x22 tag (ownProfile (chanCode c, st, l) s).2) := by
  rw [← takeRequest_taken _ _ false _ _ _ hs, ← hp]
  rfl

section

variable {s : State} {c : Chan} {st : Nat} {l : List SegmentFields}

theorem ownProfile_busy (hb : (s.chan c).state = .align ∨ (s.chan c).state = .ramp) :
    ownProfile (chanCode c, st, l) s = (s, { code := .busy }) := by
  simp only [ownProfile, onChannel_chanCode, if_pos hb]

theorem ownProfile_range (hb : ¬((s.chan c).state = .align ∨ (s.chan c).state = .ramp)) (h : 15 < st ∨ 16 < st + l.length) :
    ownProfile (chanCode c, st, l) s = (s, badValue 2) := by
  simp only [ownProfile, onChannel_chanCode, if_neg hb, if_pos h]

/-- A run that fits the sixteen places goes by its first failing field. -/
theorem ownProfile_refused {n : Nat} (hb : ¬((s.chan c).state = .align ∨ (s.chan c).state = .ramp)) (hst : st ≤ 15)
    (hfit : st + l.length ≤ 16) (h : segmentFailing 0 l = some n) : ownProfile (chanCode c, st, l) s = (s, badValue n) := by
  simp only [ownProfile, onChannel_chanCode, if_neg hb, h, if_neg (show ¬(15 < st ∨ 16 < st + l.length) by omega)]

theorem ownProfile_accepted (hb : ¬((s.chan c).state = .align ∨ (s.chan c).state = .ramp)) (hst : st ≤ 15)
    (hfit : st + l.length ≤ 16) (h : segmentFailing 0 l = none) :
    ownProfile (chanCode c, st, l) s =
      (s.modSq c (fun q => { q with profile := writeSegments (s.chan c).sq.profile st l }), ok) := by
  simp only [ownProfile, onChannel_chanCode, if_neg hb, h, if_neg (show ¬(15 < st ∨ 16 < st + l.length) by omega)]
  exact congrArg (·, ok) (modCh_congr rfl)

end

/-- Settles O36: good segments are passed over up to the failing one, and the places written are those of the run. -/
theorem profileWritesItsSegments : Obligations.ProfileWritesItsSegments := by
  intro tag p c st l s hs hlen hp run busy good
  have answered : run = .next ((ownProfile (chanCode c, st, l) s).1.replied 0x22 tag (ownProfile (chanCode c, st, l) s).2) :=
    profile_owner tag hs hp
  refine ⟨fun hb => ?_, fun hb hr => ?_, fun hb hst hfit i g hi hgood => ?_, fun hb hst hfit hall => ?_⟩
  · rw [answered, ownProfile_busy hb]
  · rw [answered, ownProfile_range hb hr]
    rfl
  · intro bad
    have refused : ∀ n, segmentFailing i (g :: l.drop (i + 1)) = some (n + 5 * i) → run = bad n := by
      intro n hn
      rw [answered, ownProfile_refused hb hst hfit (by rw [segmentFailing_after_good 0 hi hgood, Nat.zero_add, hn])]
      rfl
    exact ⟨fun hk => refused 3 (segmentFailing_of_kind _ _ hk), fun hk ht => refused 5 (segmentFailing_of_t0 _ _ hk ht),
      fun hk h5 ht hr => refused 6 (segmentFailing_of_repeats _ _ hk h5 ht hr),
      fun hk h5 ht hr h0 h1 => refused 7 (segmentFailing_of_t1 _ _ hk h5 ht hr h0 h1)⟩
  · refine ⟨writeSegments (s.chan c).sq.profile st l, ?_, ?_, fun i g hi => ?_, fun j hj => ?_⟩
    · rw [answered, ownProfile_accepted hb hst hfit (segmentFailing_of_all_good 0 hall)]
      rfl
    · rw [length_writeSegments, hlen]
    · exact getElem?_writeSegments_inside (by rw [hlen]; exact hfit) hi
    · exact getElem?_writeSegments_outside _ hj

/-! ### Closed-loop timing (R93 to R95) -/

theorem mem_prescalers_bounds {p : Nat} (h : p ∈ prescalers) : 1 ≤ p ∧ p ≤ 128 := by
  have all : ∀ p ∈ prescalers, 1 ≤ p ∧ p ≤ 128 := by decide
  exact all p h

/-- An interval of at most 6 291 455 ticks fits a prescaler, and the handover takes the smallest that it fits (R93). -/
theorem handoverScale_fits {n : Nat} (h : n ≤ 6291455) :
    ∃ p, handoverScale n = some (p, n / p) ∧ p ∈ prescalers ∧ n / p ≤ 49151 ∧ ∀ r ∈ prescalers, r < p → 49151 < n / r := by
  have fits128 : (prescalers.find? (fun p => n / p ≤ 49151)).isSome = true :=
    List.find?_isSome.2 ⟨128, by decide, decide_eq_true (by omega)⟩
  obtain ⟨p, hp⟩ := Option.isSome_iff_exists.1 fits128
  obtain ⟨hfit, below, above, hsplit, hbelow⟩ := List.find?_eq_some_iff_append.1 hp
  refine ⟨p, by rw [handoverScale, hp]; rfl, List.mem_of_find?_eq_some hp, of_decide_eq_true hfit, fun r hr hlt => ?_⟩
  have ascending : (below ++ p :: above).Pairwise (· < ·) := hsplit ▸ (by decide : prescalers.Pairwise (· < ·))
  have hpa := (List.pairwise_cons.1 (List.pairwise_append.1 ascending).2.1).1
  rw [hsplit, List.mem_append, List.mem_cons] at hr
  rcases hr with hr | rfl | hr
  · simpa using hbelow r hr
  · exact absurd hlt (Nat.lt_irrefl _)
  · exact absurd (hpa r hr) (Nat.lt_asymm hlt)

theorem handoverScale_eq_none {n : Nat} (h : 6291455 < n) : handoverScale n = none := by
  have noFit : prescalers.find? (fun p => n / p ≤ 49151) = none := by
    rw [List.find?_eq_none]
    intro p hp
    obtain ⟨h1, h128⟩ := mem_prescalers_bounds hp
    have hdiv := Nat.div_le_div_left (a := n) h128 h1
    simp only [decide_eq_true_eq]
    omega
  rw [handoverScale, noFit]
  rfl

/-! The rows of R94, by the interval in units of P. -/

section

variable {p i : Nat} (t60 : Nat)

theorem measure_discards (h : 65535 < i / p) : Machine.measure p t60 i = (p, t60) := if_pos h

theorem measure_doubles (h : 49151 < i / p) (h' : i / p ≤ 65535) (hp : p < 128) : Machine.measure p t60 i = (2 * p, i / p / 2) := by
  rw [Machine.measure, if_neg (by omega), if_pos h, if_pos hp, Nat.max_eq_right (by omega)]

theorem measure_coarsest (h : 49151 < i / p) (h' : i / p ≤ 65535) (hp : ¬p < 128) : Machine.measure p t60 i = (128, i / p) := by
  rw [Machine.measure, if_neg (by omega), if_pos h, if_neg hp]

theorem measure_keeps (h : 16384 ≤ i / p) (h' : i / p ≤ 49151) : Machine.measure p t60 i = (p, i / p) := by
  rw [Machine.measure, if_neg (by omega), if_neg (by omega), if_pos h]

theorem measure_halves (h : i / p < 16384) (hp : 1 < p) : Machine.measure p t60 i = (p / 2, max 1 (2 * (i / p))) := by
  rw [Machine.measure, if_neg (by omega), if_neg (by omega), if_neg (by omega), if_pos hp]

theorem measure_finest (h : i / p < 16384) (hp : ¬1 < p) : Machine.measure p t60 i = (1, max 1 (i / p)) := by
  rw [Machine.measure, if_neg (by omega), if_neg (by omega), if_neg (by omega), if_neg hp]

end

/-- R94 keeps P a prescaler and T60 a counter value of at least 1. -/
theorem measure_legal {p t60 : Nat} (i : Nat) (hp : p ∈ prescalers) (h1 : 1 ≤ t60) (ht : t60 ≤ 65535) :
    (Machine.measure p t60 i).1 ∈ prescalers ∧ 1 ≤ (Machine.measure p t60 i).2 ∧ (Machine.measure p t60 i).2 ≤ 65535 := by
  have doubled : ∀ p ∈ prescalers, p < 128 → 2 * p ∈ prescalers := by decide
  have halved : ∀ p ∈ prescalers, 1 < p → p / 2 ∈ prescalers := by decide
  rcases Nat.lt_or_ge 65535 (i / p) with hn | hn
  · rw [measure_discards t60 hn]
    exact ⟨hp, h1, ht⟩
  rcases Nat.lt_or_ge 49151 (i / p) with hn' | hn'
  · by_cases h128 : p < 128
    · rw [measure_doubles t60 hn' hn h128]
      exact ⟨doubled p hp h128, by omega, by omega⟩
    · rw [measure_coarsest t60 hn' hn h128]
      exact ⟨(by decide : (128 : Nat) ∈ prescalers), by omega, by omega⟩
  rcases Nat.lt_or_ge (i / p) 16384 with hn'' | hn''
  · by_cases hp1 : 1 < p
    · rw [measure_halves t60 hn'' hp1]
      exact ⟨halved p hp hp1, by omega, by omega⟩
    · rw [measure_finest t60 hn'' hp1]
      exact ⟨(by decide : (1 : Nat) ∈ prescalers), by omega, by omega⟩
  · rw [measure_keeps t60 hn'' hn']
    exact ⟨hp, by omega, by omega⟩

/-! ### Crossings (R91 to R95) -/

/-- Two updates of a channel's sequencer are one update. -/
theorem modSq_modSq (s : State) (c : Chan) (f g : StepSeq → StepSeq) :
    (s.modSq c f).modSq c g = s.modSq c fun q => g (f q) := by
  cases c <;> rfl

theorem crossingInterval_of_last {s : State} {c : Chan} {u : Time} (tzc : Time) (h : (s.chan c).sq.lastZc = some u) :
    s.crossingInterval c tzc = ticksSince tzc u := by
  simp only [State.crossingInterval, h]

/-- The sequencer after a crossing measured over an interval: R94's row, no misses, and R95's compare. -/
def measured (q : StepSeq) (tzc : Time) (interval : Nat) : StepSeq :=
  let m := Machine.measure q.p q.t60 interval
  { q with
    found := true
    lastZc := some tzc
    p := m.1
    t60 := m.2
    miss := 0
    compare := some { due := addTicks tzc (commutationDelay m.2 m.1 q.advance), kind := .predicted, reached := false } }

theorem closedCrossing_eq (s : State) (c : Chan) (tzc : Time) :
    s.closedCrossing c tzc = s.modSq c (measured · tzc (s.crossingInterval c tzc)) := by
  simp only [State.closedCrossing, State.crossingFound, State.setCompare, modSq_modSq]
  exact modCh_congr rfl

/-- Settles O19: `closedCrossing_eq` with the row of the interval. -/
theorem closedCrossingMeasuresT60 : Obligations.ClosedCrossingMeasuresT60 := by
  intro s c tzc u hu hp h1 ht p n q
  have hmem : p ∈ prescalers := List.contains_iff_mem.1 hp
  have hpos := (mem_prescalers_bounds hmem).1
  have interval : s.crossingInterval c tzc = ticksSince tzc u := crossingInterval_of_last tzc hu
  have hq : q = measured (s.chan c).sq tzc (ticksSince tzc u) := by
    change ((s.closedCrossing c tzc).chan c).sq = _
    rw [closedCrossing_eq, State.chan_modSq_same, interval]
  have scale : ∀ {p' t'}, Machine.measure p (s.chan c).sq.t60 (ticksSince tzc u) = (p', t') → q.p = p' ∧ q.t60 = t' := by
    intro p' t' hm
    rw [hq]
    exact ⟨congrArg Prod.fst hm, congrArg Prod.snd hm⟩
  obtain ⟨hlegal, hlow, hhigh⟩ := measure_legal (ticksSince tzc u) hmem h1 ht
  refine ⟨fun hn => scale (measure_discards _ hn), fun hn hn' hp' => scale (measure_doubles _ hn hn' hp'),
    fun hn hn' hp' => scale (measure_coarsest _ hn hn' (by omega)), fun hn hn' => scale (measure_keeps _ hn hn'),
    fun hn hp' => scale (measure_halves _ hn hp'), fun hn hp' => scale (measure_finest _ hn (by omega)), ?_⟩
  rw [hq]
  exact ⟨rfl, rfl, rfl, rfl, List.contains_iff_mem.2 hlegal, hlow, hhigh⟩

/-! ### A crossing in RAMP (R92, R93) -/

/-- The sequencer with a crossing found and a qualified-step count. -/
def crossed (q : StepSeq) (tzc : Time) (n : Nat) : StepSeq := { q with found := true, lastZc := some tzc, qualified := n }

theorem segment_of_place {s : State} {c : Chan} {g : Segment}
    (h : (s.chan c).sq.profile[(s.chan c).sq.seg]? = some (some g)) : s.segment c = g := segmentAt_of_place h

/-- R92's middle half of a forced step. -/
theorem inSpan_iff {s : State} {c : Chan} {u : Time} {g : Segment} (tzc : Time) (hu : (s.chan c).sq.lastComm = some u)
    (hg : (s.chan c).sq.profile[(s.chan c).sq.seg]? = some (some g)) :
    s.inSpan c tzc = true ↔
      g.stepTicks (s.chan c).sq.j / 4 ≤ ticksSince tzc u ∧ ticksSince tzc u ≤ 3 * g.stepTicks (s.chan c).sq.j / 4 := by
  simp [State.inSpan, hu, segment_of_place hg]

section

variable {s : State} {c : Chan} {tzc : Time}

/-- An early crossing, or one outside the middle half, returns the count to 0. -/
theorem rampCrossing_unqualified {early : Bool} (h : early = true ∨ s.inSpan c tzc = false) :
    s.rampCrossing c tzc early = s.modSq c (crossed · tzc 0) := by
  have hnot : ¬(!early && s.inSpan c tzc) = true := by rcases h with h | h <;> simp [h]
  unfold State.rampCrossing
  simp only [if_neg hnot]
  exact modSq_modSq _ _ _ _

/-- A qualifying crossing below Q is counted. -/
theorem rampCrossing_counted (hs : s.inSpan c tzc = true) (hq : min 15 ((s.chan c).sq.qualified + 1) < (s.chan c).active.q) :
    s.rampCrossing c tzc false = s.modSq c (crossed · tzc (min 15 ((s.chan c).sq.qualified + 1))) := by
  simp only [State.rampCrossing, hs, Bool.not_false, Bool.and_self, if_true, if_neg (Nat.not_le.2 hq)]
  exact modSq_modSq _ _ _ _

/-- The Q-th qualifying crossing is counted and leads to the handover. -/
theorem rampCrossing_completes (hs : s.inSpan c tzc = true) (hq : (s.chan c).active.q ≤ min 15 ((s.chan c).sq.qualified + 1)) :
    s.rampCrossing c tzc false =
      (s.modSq c (crossed · tzc (min 15 ((s.chan c).sq.qualified + 1)))).handOver c tzc (s.crossingInterval c tzc) := by
  simp only [State.rampCrossing, hs, Bool.not_false, Bool.and_self, if_true, if_pos hq]
  exact congrArg (State.handOver · c tzc _) (modSq_modSq _ _ _ _)

/-- At Q an interval that fits no prescaler returns the count to 0. -/
theorem rampCrossing_unscaled (hs : s.inSpan c tzc = true) (hq : (s.chan c).active.q ≤ min 15 ((s.chan c).sq.qualified + 1))
    (h : handoverScale (s.crossingInterval c tzc) = none) : s.rampCrossing c tzc false = s.modSq c (crossed · tzc 0) := by
  rw [rampCrossing_completes hs hq]
  simp only [State.handOver, h]
  exact modSq_modSq _ _ _ _

/-- A channel handed over (R93, R95): CLOSED with a crossing counted and P, T60, duty and compare set. -/
def handedOver (k : Channel) (tzc : Time) (p t60 duty : Nat) : Channel :=
  { k with
    state := .closed
    sq :=
      { crossed k.sq tzc (min 15 (k.sq.qualified + 1)) with
        t60 := t60
        p := p
        duty := duty
        miss := 0
        compare := some { due := addTicks tzc (commutationDelay t60 p k.sq.advance), kind := .predicted, reached := false } } }

/-- At Q an interval that fits hands over, with its event record. -/
theorem rampCrossing_handsOver {p t60 : Nat} (hs : s.inSpan c tzc = true)
    (hq : (s.chan c).active.q ≤ min 15 ((s.chan c).sq.qualified + 1))
    (h : handoverScale (s.crossingInterval c tzc) = some (p, t60)) :
    s.rampCrossing c tzc false =
      (s.modCh c (handedOver · tzc p t60 (s.segment c).duty)).queueEvent .handover (some c) t60 := by
  rw [rampCrossing_completes hs hq]
  simp only [State.handOver, h]
  cases c <;> rfl

end

/-- All that a crossing in RAMP can do: it is found and the count set, or it hands over. -/
theorem rampCrossing_cases (s : State) (c : Chan) (tzc : Time) (early : Bool) :
    (∃ n, s.rampCrossing c tzc early = s.modSq c (crossed · tzc n)) ∨
      ∃ p t60, s.rampCrossing c tzc early =
        (s.modCh c (handedOver · tzc p t60 (s.segment c).duty)).queueEvent .handover (some c) t60 := by
  by_cases hu : early = true ∨ s.inSpan c tzc = false
  · exact .inl ⟨_, rampCrossing_unqualified hu⟩
  obtain ⟨rfl, hs⟩ : early = false ∧ s.inSpan c tzc = true := by simpa using hu
  rcases Nat.lt_or_ge (min 15 ((s.chan c).sq.qualified + 1)) (s.chan c).active.q with hq | hq
  · exact .inl ⟨_, rampCrossing_counted hs hq⟩
  cases hscale : handoverScale (s.crossingInterval c tzc) with
  | none => exact .inl ⟨_, rampCrossing_unscaled hs hq hscale⟩
  | some m => exact .inr ⟨m.1, m.2, rampCrossing_handsOver hs hq hscale⟩

/-- The conditions of the row HANDOVER (R88 to R92), as log 5 gives them. -/
theorem crossingPossible_of {s : State} {c : Chan} {tzc w : Time} {e : Int} {b : AuxResult} {r : Plan} {x : Compare}
    (hst : (s.chan c).state = .ramp) (hplan : (s.chan c).curPlan = some r) (hx : (s.chan c).sq.compare = some x)
    (hreached : x.reached = false) (hfound : (s.chan c).sq.found = false) (hbus : s.prot.bus = some b) (hage : b.age < 4)
    (hblank : (s.chan c).sq.blanking = 0) (hprev : (s.chan c).sq.prev = some (w, e)) (hw : notBefore tzc w = true)
    (hnow : notBefore s.tb.now tzc = true) : s.crossingPossible c tzc = true := by
  simp [State.crossingPossible, StepSeq.detecting, Protection.reference, hst, hplan, hx, hreached, hfound, hbus, hage, hblank, hprev,
    hw, hnow]

theorem execHandover_possible {s : State} {c : Chan} {tzc : Time} (h : s.crossingPossible c tzc = true)
    (hq : (s.chan c).active.q ≤ (s.chan c).sq.qualified + 1) (hs : s.inSpan c tzc = true) :
    execHandover c tzc s = .next (s.rampCrossing c tzc false).settle := if_pos ⟨h, hq, hs⟩

/-- Settles O51: the row is `rampCrossing_handsOver`, since its interval fits a prescaler. -/
theorem handoverClosesTheLoop : Obligations.HandoverClosesTheLoop := by
  intro c s tzc u v w e b r x g k q hst hplan hx hreached hfound hbus hage hblank hprev hw hnow hu hv hg hQ hQ15 hlow hhigh hfit
  have hspan : s.inSpan c tzc = true := (inSpan_iff tzc hu hg).2 ⟨hlow, hhigh⟩
  obtain ⟨p, hscale, hp, hpfit, hsmallest⟩ := handoverScale_fits hfit
  have hrun := execHandover_possible (crossingPossible_of hst hplan hx hreached hfound hbus hage hblank hprev hw hnow) hQ hspan
  have hscaled : handoverScale (s.crossingInterval c tzc) = some (p, ticksSince tzc v / p) := by
    rw [crossingInterval_of_last tzc hv, hscale]
  rw [rampCrossing_handsOver hspan (le_min hQ15 hQ) hscaled, segment_of_place hg] at hrun
  have hchan : ((s.modCh c (handedOver · tzc p (ticksSince tzc v / p) g.duty)).queueEvent .handover (some c)
      (ticksSince tzc v / p)).chan c = handedOver k tzc p (ticksSince tzc v / p) g.duty := by
    rw [State.chan_queueEvent, State.chan_modCh_same]
  refine ⟨_, p, hrun, fun y hy => (State.chan_queueEvent _ _ _ _ _).trans (State.chan_modCh_other _ _ hy), ?_⟩
  rw [hchan]
  exact ⟨rfl, hp, hpfit, hsmallest, rfl, rfl, rfl, rfl, rfl⟩

/-! ### What the sequencer's operations leave alone -/

/-- Nothing of the channels changes but one channel's state and sequencer. -/
structure SequencerOnly (c : Chan) (s t : State) : Prop where
  own : ∃ st q, t.chan c = { s.chan c with state := st, sq := q }
  others : s.sameChannelsBut t c

theorem SequencerOnly.refl (c : Chan) (s : State) : SequencerOnly c s s := ⟨⟨_, _, rfl⟩, fun _ _ => rfl⟩

theorem SequencerOnly.of_ch {c : Chan} {s t u : State} (h : SequencerOnly c s t) (hu : u.ch = t.ch) : SequencerOnly c s u := by
  have hchan : ∀ x, u.chan x = t.chan x := fun x => by rw [State.chan, hu, State.chan]
  exact ⟨by rw [hchan]; exact h.own, fun x hx => by rw [hchan]; exact h.others x hx⟩

theorem sequencerOnly_modCh {s : State} {c : Chan} {f : Channel → Channel}
    (h : ∃ st q, f (s.chan c) = { s.chan c with state := st, sq := q }) : SequencerOnly c s (s.modCh c f) :=
  ⟨by rw [State.chan_modCh_same]; exact h, fun _ hx => State.chan_modCh_other _ _ hx⟩

theorem sequencerOnly_modSq (s : State) (c : Chan) (f : StepSeq → StepSeq) : SequencerOnly c s (s.modSq c f) :=
  sequencerOnly_modCh ⟨_, _, rfl⟩

theorem sequencerOnly_rampCrossing (s : State) (c : Chan) (tzc : Time) (early : Bool) :
    SequencerOnly c s (s.rampCrossing c tzc early) := by
  rcases rampCrossing_cases s c tzc early with ⟨n, h⟩ | ⟨p, t60, h⟩ <;> rw [h]
  · exact sequencerOnly_modSq _ _ _
  · exact (sequencerOnly_modCh ⟨_, _, rfl⟩).of_ch (State.queueEvent_ch _ _ _ _)

theorem SequencerOnly.frame {c : Chan} {s t : State} (h : SequencerOnly c s t) :
    (t.chan c).converted = (s.chan c).converted ∧ (t.chan c).gates = (s.chan c).gates := by
  obtain ⟨st, q, hk⟩ := h.own
  rw [hk]
  exact ⟨rfl, rfl⟩

/-! ### The tests of a sense result (R88, R89) -/

theorem detecting_eq (q : StepSeq) :
    q.detecting = decide ¬(q.found = true ∨ ∃ x, q.compare = some x ∧ x.reached = true) := by
  unfold StepSeq.detecting
  cases hf : q.found <;> cases hc : q.compare <;> simp

/-- A conversion of the current step passes to the test whether detection is open. -/
theorem detects_of_current {q : StepSeq} {u start : Time} {float : Bool} (hu : q.lastComm = some u)
    (h : later start u = true ∨ (start = u ∧ float = true)) : q.detects start float = q.detecting := by
  rcases h with h | ⟨rfl, rfl⟩
  · simp [StepSeq.detects, hu, h]
  · simp [StepSeq.detects, hu]

/-- A conversion begun before the current step, or at its commutation on another input, does not. -/
theorem detects_of_earlier {q : StepSeq} {u start : Time} {float : Bool} (hu : q.lastComm = some u) (hl : later start u = false)
    (h : start ≠ u ∨ float = false) : q.detects start float = false := by
  have hinput : (start == u && float) = false := by
    rcases h with h | rfl
    · rw [beq_eq_false_iff_ne.2 h, Bool.false_and]
    · exact Bool.and_false _
  simp [StepSeq.detects, hu, hl, hinput]

theorem holdsPlan_iff (k : Channel) (seq : Seq) : k.holdsPlan seq = true ↔ ∃ p, k.curPlan = some p ∧ p.seq = seq := by
  unfold Channel.holdsPlan
  cases k.curPlan <;> simp

theorem reference_young {p : Protection} {b : AuxResult} (hb : p.bus = some b) (h : b.age < 4) : p.reference = some b.raw := by
  simp [Protection.reference, hb, h]

theorem reference_old {p : Protection} {b : AuxResult} (hb : p.bus = some b) (h : 4 ≤ b.age) : p.reference = none := by
  simp [Protection.reference, hb, h]

section

variable {s : State} {c : Chan} {seq : Seq} {raw : Nat} {start : Time} {input float : Nat}

/-- A result that fails a test of R88 changes nothing. -/
theorem senseResult_discarded
    (h : ((s.chan c).state ≠ .ramp ∧ (s.chan c).state ≠ .closed) ∨ (s.chan c).holdsPlan seq = false ∨
      (s.chan c).sq.detects start (input == float) = false) :
    s.senseResult c seq raw start input float = s := by
  refine if_neg fun ht => ?_
  simp only [Bool.and_eq_true, Bool.or_eq_true, beq_iff_eq] at ht
  obtain ⟨⟨hst, hplan⟩, hdet⟩ := ht
  rcases h with ⟨hr, hc⟩ | h | h
  · exact hst.elim hr hc
  · exact Bool.false_ne_true (h.symm.trans hplan)
  · exact Bool.false_ne_true (h.symm.trans hdet)

/-- Without a bus result to reference it, a result changes nothing (R89). -/
theorem senseResult_unreferenced (h : s.prot.reference = none) : s.senseResult c seq raw start input float = s := by
  simp only [State.senseResult, h, ite_self]

/-- A result that passes the tests is swallowed by the blanking (R90) or classified by its difference (R89, R91). -/
theorem senseResult_passed {bus : Nat} (hst : (s.chan c).state = .ramp ∨ (s.chan c).state = .closed)
    (hplan : (s.chan c).holdsPlan seq = true) (hdet : (s.chan c).sq.detects start (input == float) = true)
    (hbus : s.prot.reference = some bus) :
    s.senseResult c seq raw start input float =
      if 0 < (s.chan c).sq.blanking then s.modSq c fun q => { q with blanking := q.blanking - 1 }
      else s.classify c start ((raw : Int) - (bus / 2 : Nat)) := by
  have ht : (((s.chan c).state == .ramp || (s.chan c).state == .closed) && (s.chan c).holdsPlan seq &&
      (s.chan c).sq.detects start (input == float)) = true := by
    simp only [Bool.and_eq_true, Bool.or_eq_true, beq_iff_eq]
    exact ⟨⟨hst, hplan⟩, hdet⟩
  simp only [State.senseResult, ht, hbus, if_true]

end

/-! ### The classification of a usable result (R91) -/

/-- R91's after side, by direction and step. -/
theorem afterSide_rising_iff (dir : Direction) (i : Nat) (d : Int) :
    afterSide (risingCrossing dir i) d = true ↔
      (((dir = .forward ∧ i % 2 = 1) ∨ (dir = .reverse ∧ i % 2 = 0)) ∧ 0 ≤ d) ∨
        (¬((dir = .forward ∧ i % 2 = 1) ∨ (dir = .reverse ∧ i % 2 = 0)) ∧ d ≤ 0) := by
  cases dir with
  | forward => by_cases hi : i % 2 = 1 <;> simp [afterSide, risingCrossing, hi]
  | reverse => by_cases hi : i % 2 = 0 <;> simp [afterSide, risingCrossing, hi]

/-- The instant of a crossing that a result gives: interpolated from the previous usable result, else its start (R91). -/
def crossingInstant (q : StepSeq) (start : Time) (d : Int) : Time :=
  match q.prev with
  | some (w, e) => interpolate w e start d
  | none => start

theorem crossingInstant_none {q : StepSeq} (start : Time) (d : Int) (h : q.prev = none) : crossingInstant q start d = start := by
  simp only [crossingInstant, h]

theorem crossingInstant_some {q : StepSeq} {w : Time} {e : Int} (start : Time) (d : Int) (h : q.prev = some (w, e)) :
    crossingInstant q start d = addTicks w (ticksSince start w * e.natAbs / (e.natAbs + d.natAbs)) := by
  simp only [crossingInstant, h, interpolate]

section

variable {s : State} {c : Chan} {start : Time} {d : Int}

/-- A result before the crossing is kept. -/
theorem classify_before (h : ¬afterSide (risingCrossing (s.chan c).sq.dir (s.chan c).sq.index) d = true) :
    s.classify c start d = s.modSq c fun q => { q with prev := some (start, d) } := if_neg h

theorem classify_ramp (h : afterSide (risingCrossing (s.chan c).sq.dir (s.chan c).sq.index) d = true)
    (hst : (s.chan c).state = .ramp) :
    s.classify c start d = s.rampCrossing c (crossingInstant (s.chan c).sq start d) (s.chan c).sq.prev.isNone :=
  (if_pos h).trans (if_pos hst)

theorem classify_closed (h : afterSide (risingCrossing (s.chan c).sq.dir (s.chan c).sq.index) d = true)
    (hst : (s.chan c).state = .closed) :
    s.classify c start d = s.closedCrossing c (crossingInstant (s.chan c).sq start d) :=
  (if_pos h).trans (if_neg (by rw [hst]; decide))

end

theorem sequencerOnly_classify (s : State) (c : Chan) (start : Time) (d : Int) : SequencerOnly c s (s.classify c start d) := by
  unfold State.classify
  simp only
  split_ifs
  · exact sequencerOnly_rampCrossing _ _ _ _
  · rw [closedCrossing_eq]
    exact sequencerOnly_modSq _ _ _
  · exact sequencerOnly_modSq _ _ _

theorem sequencerOnly_senseResult (s : State) (c : Chan) (seq : Seq) (raw : Nat) (start : Time) (input float : Nat) :
    SequencerOnly c s (s.senseResult c seq raw start input float) := by
  unfold State.senseResult
  simp only
  split
  · split
    · exact .refl _ _
    · split
      · exact sequencerOnly_modSq _ _ _
      · exact sequencerOnly_classify _ _ _ _
  · exact .refl _ _

/-- A crossing in RAMP is found and becomes the last one, whatever its count (R91). -/
theorem rampCrossing_found (s : State) (c : Chan) (tzc : Time) (early : Bool) :
    ((s.rampCrossing c tzc early).chan c).sq.found = true ∧ ((s.rampCrossing c tzc early).chan c).sq.lastZc = some tzc := by
  rcases rampCrossing_cases s c tzc early with ⟨n, h⟩ | ⟨p, t60, h⟩ <;> rw [h]
  · rw [State.chan_modSq_same]
    exact ⟨rfl, rfl⟩
  · rw [State.chan_queueEvent, State.chan_modCh_same]
    exact ⟨rfl, rfl⟩

/-! ### The completion of a SENSE conversion (R110, R111) -/

/-- The input that reads the floating phase of a channel's present step (R101). -/
def floatInput (s : State) (c : Chan) : Nat :=
  3 * chanCode c + (match floatPhase (s.chan c).sq.index with | .u => 0 | .v => 1 | .w => 2)

/-- A SENSE entry reads the floating phase (R101). -/
theorem inputOf_sense (s : State) {c : Chan} {e : Entry} (ho : e.owner = .chan c) (hp : e.purpose = .sense) :
    s.inputOf e = floatInput s c := by
  obtain ⟨slot, owner, purpose, due, tol, level, seq, merged⟩ := e
  cases ho
  cases hp
  rfl

theorem floatInput_congr {s t : State} {c : Chan} (h : (t.chan c).sq = (s.chan c).sq) : floatInput t c = floatInput s c := by
  unfold floatInput
  rw [h]

/-- The state in which a sense result reaches the sequencer: the converter IDLE, the result counted and in the working record. -/
def senseArrived (s : State) (c : Chan) (v : Conversion) : State :=
  ((s.modSched fun q => { q with conv := none }).modCh c fun k => { k with converted := k.converted + 1 }).modRb c
    (·.record v.entry.seq fun w => w.setPlace .sense (.sensed (ticksSince v.start v.entry.due)))

theorem chan_senseArrived_same (s : State) (c : Chan) (v : Conversion) :
    (senseArrived s c v).chan c =
      { s.chan c with
        converted := (s.chan c).converted + 1
        rb := (s.chan c).rb.record v.entry.seq fun w => w.setPlace .sense (.sensed (ticksSince v.start v.entry.due)) } := by
  rw [senseArrived, State.chan_modRb_same, State.chan_modCh_same, State.chan_modSched]

@[simp] theorem senseArrived_sq (s : State) (c : Chan) (v : Conversion) : ((senseArrived s c v).chan c).sq = (s.chan c).sq := by
  rw [chan_senseArrived_same]

@[simp] theorem senseArrived_state (s : State) (c : Chan) (v : Conversion) :
    ((senseArrived s c v).chan c).state = (s.chan c).state := by
  rw [chan_senseArrived_same]

@[simp] theorem senseArrived_active (s : State) (c : Chan) (v : Conversion) :
    ((senseArrived s c v).chan c).active = (s.chan c).active := by
  rw [chan_senseArrived_same]

@[simp] theorem senseArrived_holdsPlan (s : State) (c : Chan) (v : Conversion) (seq : Seq) :
    ((senseArrived s c v).chan c).holdsPlan seq = (s.chan c).holdsPlan seq := by
  rw [chan_senseArrived_same]
  rfl

@[simp] theorem senseArrived_prot (s : State) (c : Chan) (v : Conversion) : (senseArrived s c v).prot = s.prot := rfl

@[simp] theorem senseArrived_crossingInterval (s : State) (c : Chan) (v : Conversion) (tzc : Time) :
    (senseArrived s c v).crossingInterval c tzc = s.crossingInterval c tzc := by
  unfold State.crossingInterval
  rw [senseArrived_sq]
  rfl

theorem chan_senseArrived_other (s : State) {c x : Chan} (v : Conversion) (h : x ≠ c) :
    (senseArrived s c v).chan x = s.chan x := by
  unfold senseArrived State.modRb
  rw [State.chan_modCh_other _ _ h, State.chan_modCh_other _ _ h, State.chan_modSched]

section

variable {s : State} {v : Conversion} {c : Chan}

theorem execConversionComplete_sense (raw : BitVec 12) (hv : s.sched.conv = some v) (hl : v.left = 0)
    (ho : v.entry.owner = .chan c) (hp : v.entry.purpose = .sense) :
    execConversionComplete raw s =
      .next ((senseArrived s c v).senseResult c v.entry.seq raw.toNat v.start v.input (floatInput s c)).settle := by
  simp only [execConversionComplete, hv, hl, State.elapse_zero, done_eq, State.completeConversion, ho, State.channelResult, hp]
  rw [inputOf_sense _ ho hp, floatInput_congr (s := s) (by rw [State.chan_modCh_same, State.chan_modSched])]
  rfl

end

/-- A completed SENSE conversion changes nothing of the channels but the owner's count, working record, state and sequencer. -/
theorem senseResult_frame (s : State) (c : Chan) (v : Conversion) (raw : Nat) :
    let t := ((senseArrived s c v).senseResult c v.entry.seq raw v.start v.input (floatInput s c)).settle
    s.sameChannelsBut t c ∧ (t.chan c).converted = (s.chan c).converted + 1 ∧ (t.chan c).gates = (s.chan c).gates := by
  intro t
  have only := sequencerOnly_senseResult (senseArrived s c v) c v.entry.seq raw v.start v.input (floatInput s c)
  obtain ⟨hconv, hgates⟩ := only.frame
  refine ⟨fun x hx => ?_, ?_, ?_⟩
  · rw [State.chan_settle, only.others x hx, chan_senseArrived_other s v hx]
  · rw [State.chan_settle, hconv, chan_senseArrived_same]
  · rw [State.chan_settle, hgates, chan_senseArrived_same]

/-! ### A crossing in RAMP by its count (R92, R93) -/

section

variable {s t : State} {c : Chan} {tzc u : Time} {g : Segment}

/-- The channel that a counted crossing leaves in RAMP. -/
theorem stays_of_crossed {n : Nat} (hst : (s.chan c).state = .ramp) (ht : t = s.modSq c (crossed · tzc n)) :
    (t.chan c).state = .ramp ∧ (t.chan c).sq = crossed (s.chan c).sq tzc n := by
  rw [ht, State.chan_modSq_same]
  exact ⟨hst, rfl⟩

/-- A crossing in RAMP that is not early, by R92's middle half, the count, and at Q the interval: a handover up to 6 291 455 ticks, else
the count returns to 0 (R93). -/
theorem rampCrossing_by_count (hst : (s.chan c).state = .ramp) (hu : (s.chan c).sq.lastComm = some u)
    (hg : (s.chan c).sq.profile[(s.chan c).sq.seg]? = some (some g)) (hQ : (s.chan c).active.q ≤ 15) :
    let q := (s.chan c).sq
    let k := (s.rampCrossing c tzc false).chan c
    let inside := g.stepTicks q.j / 4 ≤ ticksSince tzc u ∧ ticksSince tzc u ≤ 3 * g.stepTicks q.j / 4
    (¬inside → k.state = .ramp ∧ k.sq = crossed q tzc 0) ∧
    (inside → q.qualified + 1 < (s.chan c).active.q → k.state = .ramp ∧ k.sq = crossed q tzc (q.qualified + 1)) ∧
    ∀ x, inside → (s.chan c).active.q ≤ q.qualified + 1 → q.lastZc = some x →
      (ticksSince tzc x ≤ 6291455 → k.state = .closed ∧ k.sq.qualified = min 15 (q.qualified + 1)) ∧
      (6291455 < ticksSince tzc x → k.state = .ramp ∧ k.sq = crossed q tzc 0) := by
  intro q k inside
  have span : s.inSpan c tzc = true ↔ inside := inSpan_iff tzc hu hg
  refine ⟨fun hout => ?_, fun hin hlt => ?_, fun x hin hle hx => ⟨fun hfit => ?_, fun hbig => ?_⟩⟩
  · exact stays_of_crossed hst (rampCrossing_unqualified (.inr (Bool.eq_false_iff.2 (mt span.1 hout))))
  · have hmin : min 15 (q.qualified + 1) = q.qualified + 1 := min_eq_right (by omega)
    exact stays_of_crossed hst (hmin ▸ rampCrossing_counted (span.2 hin) (hmin.trans_lt hlt))
  · obtain ⟨p, hscale, _⟩ := handoverScale_fits hfit
    have hchan : k = _ := congrArg (State.chan · c) (rampCrossing_handsOver (span.2 hin) (le_min hQ hle)
      (by rw [crossingInterval_of_last tzc hx, hscale]))
    rw [hchan, State.chan_queueEvent, State.chan_modCh_same]
    exact ⟨rfl, rfl⟩
  · exact stays_of_crossed hst (rampCrossing_unscaled (span.2 hin) (le_min hQ hle)
      (by rw [crossingInterval_of_last tzc hx, handoverScale_eq_none hbig]))

end

/-! ### The course of a sense result -/

section

variable {s : State} {c : Chan} {v : Conversion}

/-- A result that R88 or R89 discards changes nothing more. -/
theorem senseArrived_discards
    (h : ((s.chan c).state ≠ .ramp ∧ (s.chan c).state ≠ .closed) ∨ (s.chan c).curPlan = none ∨
      (∃ p, (s.chan c).curPlan = some p ∧ p.seq ≠ v.entry.seq) ∨
      (∃ u, (s.chan c).sq.lastComm = some u ∧ later v.start u = false ∧ (v.start ≠ u ∨ v.input ≠ floatInput s c)) ∨
      s.prot.bus = none) (raw : Nat) :
    (senseArrived s c v).senseResult c v.entry.seq raw v.start v.input (floatInput s c) = senseArrived s c v := by
  have noPlan : (¬∃ p, (s.chan c).curPlan = some p ∧ p.seq = v.entry.seq) →
      ((senseArrived s c v).chan c).holdsPlan v.entry.seq = false := fun hn => by
    rw [senseArrived_holdsPlan, Bool.eq_false_iff]
    exact mt (holdsPlan_iff _ _).1 hn
  rcases h with h | h | ⟨p, hp, hseq⟩ | ⟨u, hu, hl, hfloat⟩ | h
  · exact senseResult_discarded (.inl (by rw [senseArrived_state]; exact h))
  · exact senseResult_discarded (.inr (.inl (noPlan (by simp [h]))))
  · exact senseResult_discarded (.inr (.inl (noPlan (by simp [hp, hseq]))))
  · refine senseResult_discarded (.inr (.inr ?_))
    rw [senseArrived_sq]
    exact detects_of_earlier hu hl (hfloat.imp_right beq_eq_false_iff_ne.2)
  · exact senseResult_unreferenced (by rw [senseArrived_prot, Protection.reference, h])

/-- A result of the current step is discarded where detection is shut or the bus result old (R88, R89). -/
theorem senseArrived_shut {u : Time} {b : AuxResult} (hu : (s.chan c).sq.lastComm = some u)
    (hcur : later v.start u = true ∨ (v.start = u ∧ v.input = floatInput s c)) (hb : s.prot.bus = some b)
    (h : (s.chan c).sq.detecting = false ∨ 4 ≤ b.age) (raw : Nat) :
    (senseArrived s c v).senseResult c v.entry.seq raw v.start v.input (floatInput s c) = senseArrived s c v := by
  rcases h with h | h
  · refine senseResult_discarded (.inr (.inr ?_))
    rw [senseArrived_sq, detects_of_current hu (hcur.imp_right (And.imp_right beq_iff_eq.2)), h]
  · exact senseResult_unreferenced (reference_old hb h)

/-- A result of the current plan and step is swallowed by the blanking or classified by its difference, while detection is open and the bus
result is young (R88 to R91). -/
theorem senseArrived_passes {p : Plan} {u : Time} {b : AuxResult} (hst : (s.chan c).state = .ramp ∨ (s.chan c).state = .closed)
    (hplan : (s.chan c).curPlan = some p) (hseq : p.seq = v.entry.seq) (hu : (s.chan c).sq.lastComm = some u)
    (hcur : later v.start u = true ∨ (v.start = u ∧ v.input = floatInput s c)) (hb : s.prot.bus = some b) (hage : b.age < 4)
    (hopen : (s.chan c).sq.detecting = true) (raw : Nat) :
    (senseArrived s c v).senseResult c v.entry.seq raw v.start v.input (floatInput s c) =
      if 0 < (s.chan c).sq.blanking then (senseArrived s c v).modSq c fun q => { q with blanking := q.blanking - 1 }
      else (senseArrived s c v).classify c v.start ((raw : Int) - (b.raw / 2 : Nat)) := by
  have hcurrent := detects_of_current hu (hcur.imp_right (And.imp_right beq_iff_eq.2))
  rw [← senseArrived_sq s c v] at hcurrent hopen ⊢
  exact senseResult_passed (by rw [senseArrived_state]; exact hst)
    (by rw [senseArrived_holdsPlan]; exact (holdsPlan_iff _ _).2 ⟨p, hplan, hseq⟩) (hcurrent.trans hopen) (reference_young hb hage)

/-- A crossing in CLOSED is measured as it would be without the conversion's bookkeeping. -/
theorem classify_senseArrived_closed {d : Int} (h : afterSide (risingCrossing (s.chan c).sq.dir (s.chan c).sq.index) d = true)
    (hst : (s.chan c).state = .closed) :
    let k := ((senseArrived s c v).classify c v.start d).chan c
    k.state = .closed ∧ k.sq.miss = 0 ∧
      k.sq = ((s.closedCrossing c (crossingInstant (s.chan c).sq v.start d)).chan c).sq := by
  intro k
  have hk : k = _ := congrArg (State.chan · c)
    (classify_closed (by rw [senseArrived_sq]; exact h) ((senseArrived_state _ _ _).trans hst))
  rw [hk, closedCrossing_eq, closedCrossing_eq, State.chan_modSq_same, State.chan_modSq_same,
    senseArrived_crossingInterval, senseArrived_sq]
  exact ⟨(senseArrived_state _ _ _).trans hst, rfl, rfl⟩

/-- A crossing in RAMP is the one of the channel as the result found it. -/
theorem classify_senseArrived_ramp {d : Int} (h : afterSide (risingCrossing (s.chan c).sq.dir (s.chan c).sq.index) d = true)
    (hst : (s.chan c).state = .ramp) :
    (senseArrived s c v).classify c v.start d =
      (senseArrived s c v).rampCrossing c (crossingInstant (s.chan c).sq v.start d) (s.chan c).sq.prev.isNone := by
  rw [classify_ramp (by rw [senseArrived_sq]; exact h) ((senseArrived_state _ _ _).trans hst), senseArrived_sq]

/-- Where it finds a crossing, the crossing becomes the last one (R91). -/
theorem classify_senseArrived_found {d : Int} (h : afterSide (risingCrossing (s.chan c).sq.dir (s.chan c).sq.index) d = true)
    (hst : (s.chan c).state = .ramp ∨ (s.chan c).state = .closed) :
    let k := ((senseArrived s c v).classify c v.start d).chan c
    k.sq.found = true ∧ k.sq.lastZc = some (crossingInstant (s.chan c).sq v.start d) := by
  intro k
  rcases hst with hst | hst
  · have hk : k = _ := congrArg (State.chan · c) (classify_senseArrived_ramp h hst)
    rw [hk]
    exact rampCrossing_found _ _ _ _
  · have hk : k.sq = _ := (classify_senseArrived_closed h hst).2.2
    rw [hk, closedCrossing_eq, State.chan_modSq_same]
    exact ⟨rfl, rfl⟩

end

/-- Settles O52: a discarded result leaves `senseArrived`; one that passes the tests is swallowed, kept, or a crossing, which is measured
in CLOSED and goes by `rampCrossing_by_count` in RAMP. -/
theorem senseResultsAreReferencedBlankedAndClassified : Obligations.SenseResultsAreReferencedBlankedAndClassified := by
  unfold Obligations.SenseResultsAreReferencedBlankedAndClassified
  intro floats
  have hfloats : ∀ s c, floats s c = floatInput s c := fun s c => by cases c <;> rfl
  refine ⟨fun raw s v c hv hl ho hp h => ?_, fun raw s v c p u b hv hl ho hp hst hplan hseq hu hcur hb => ?_⟩
  · obtain ⟨hothers, hconv, hgates⟩ := senseResult_frame s c v raw.toNat
    refine ⟨_, execConversionComplete_sense raw hv hl ho hp, hothers, ?_, ?_, hconv, hgates⟩
    all_goals rw [senseArrived_discards (by simpa only [hfloats] using h), State.chan_settle, chan_senseArrived_same]
  intro q d rising after shut
  rw [hfloats] at hcur
  obtain ⟨hothers, hconv, hgates⟩ := senseResult_frame s c v raw.toNat
  refine ⟨_, execConversionComplete_sense raw hv hl ho hp, hothers, hconv, hgates, ?_⟩
  simp only [State.chan_settle]
  have hopen : ¬shut → q.detecting = true := fun h => by rw [detecting_eq, decide_eq_true h]
  have hside : afterSide (risingCrossing q.dir q.index) d = true ↔ after := afterSide_rising_iff q.dir q.index d
  have hsq : ((senseArrived s c v).chan c).sq = q := senseArrived_sq s c v
  have passes : ¬shut → b.age < 4 → (senseArrived s c v).senseResult c v.entry.seq raw.toNat v.start v.input (floatInput s c) =
      if 0 < q.blanking then (senseArrived s c v).modSq c fun q => { q with blanking := q.blanking - 1 }
      else (senseArrived s c v).classify c v.start d :=
    fun h hage => senseArrived_passes hst hplan hseq hu hcur hb hage (hopen h) raw.toNat
  refine ⟨fun h => ?_, fun h hage hblank => ?_, fun h hage hblank hbefore => ?_, fun h hage hblank hafter => ?_⟩
  · rw [senseArrived_shut hu hcur hb (h.imp_left fun h => by rw [detecting_eq, decide_eq_false (not_not.2 h)]), hsq]
  · rw [passes h hage, if_pos hblank, State.chan_modSq_same, hsq]
  · rw [passes h hage, if_neg (Nat.not_lt.2 hblank.le), classify_before (by rw [hsq]; exact mt hside.1 hbefore),
      State.chan_modSq_same, hsq]
  rw [passes h hage, if_neg (Nat.not_lt.2 hblank.le)]
  have hcross := hside.2 hafter
  obtain ⟨hfound, hlast⟩ := classify_senseArrived_found (v := v) hcross hst
  refine ⟨hfound, fun hnone => ?_, fun w e hsome => ?_, fun hclosed => ?_, fun g hramp hg hQ => ?_⟩
  · exact hlast.trans (congrArg some (crossingInstant_none v.start d hnone))
  · exact hlast.trans (congrArg some (crossingInstant_some v.start d hsome))
  · exact classify_senseArrived_closed hcross hclosed
  have hstate := (senseArrived_state s c v).trans hramp
  rw [classify_senseArrived_ramp hcross hramp]
  refine ⟨fun hnone => ?_, fun w e hsome => ?_⟩
  · rw [crossingInstant_none v.start d hnone, Option.isNone_iff_eq_none.2 hnone, ← hsq]
    exact stays_of_crossed hstate (rampCrossing_unqualified (.inl rfl))
  · rw [crossingInstant_some v.start d hsome, show q.prev.isNone = false by rw [hsome]; rfl]
    have byCount := rampCrossing_by_count (tzc := addTicks w (ticksSince v.start w * e.natAbs / (e.natAbs + d.natAbs))) hstate
      (by rw [hsq]; exact hu) (by rw [hsq]; exact hg) (by rw [senseArrived_active]; exact hQ)
    rw [hsq, senseArrived_active] at byCount
    exact byCount

end Sys2Proof.SixStep


/-!
The conversion scheduler (ch.6): the books that the sample counters, the timeline and the link's queues make up, and what a command can do
to them. Two invariants follow from it, the identity of the sample counters (R121) and the bounds of the queues (R104, R168, R170, R172);
then the arbiter, the requests that the scheduler and the monitor own, and the completion of a conversion.
-/

namespace Sys2Proof.Scheduling

open Sys2Proof Sys2Proof.Machine Sys2Proof.Motor Sys2Proof.Edges Sys2Proof.SixStep

/-! ### The books -/

/-- The sample counters of a channel (R121). -/
structure Tally where
  requested : BitVec 32
  converted : BitVec 32
  late : BitVec 32
  flushed : BitVec 32

def tally (k : Channel) : Tally := ⟨k.requested, k.converted, k.late, k.flushed⟩

/-- What the two invariants speak of: the sample counters, the entries waiting and converting, and the link's three queues. -/
structure Books where
  tally : Chan → Tally
  timeline : List Entry
  converting : Option Entry
  events : List EventRecord
  out : List OutFrame
  rxBuf : List Frame

def books (s : State) : Books where
  tally c := tally (s.chan c)
  timeline := s.sched.timeline
  converting := s.sched.conv.map (·.entry)
  events := s.link.events
  out := s.link.out
  rxBuf := s.link.rxBuf

/-! What leaves the books alone. -/

theorem books_modCh {s : State} {c : Chan} {f : Channel → Channel} (h : tally (f (s.chan c)) = tally (s.chan c)) :
    books (s.modCh c f) = books s := by
  have hc : ∀ x, tally ((s.modCh c f).chan x) = tally (s.chan x) := by
    intro x
    rw [State.chan_modCh]
    split_ifs with hx
    · rw [hx, h]
    · rfl
  simp only [books, hc, State.modCh_sched, State.modCh_link]

theorem books_map {s t : State} {f : Channel → Channel} (h : ∀ k, tally (f k) = tally k) (hch : t.ch = s.ch.map f)
    (htl : t.sched.timeline = s.sched.timeline) (hconv : t.sched.conv.map (·.entry) = s.sched.conv.map (·.entry))
    (hevents : t.link.events = s.link.events) (hout : t.link.out = s.link.out) (hrx : t.link.rxBuf = s.link.rxBuf) :
    books t = books s := by
  have hc : ∀ c, tally (t.chan c) = tally (s.chan c) := by
    intro c
    rw [show t.chan c = f (s.chan c) by simp only [State.chan, hch, PerChan.get_map], h]
  simp only [books, hc, htl, hconv, hevents, hout, hrx]

@[simp] theorem books_modSq (s : State) (c : Chan) (f : StepSeq → StepSeq) : books (s.modSq c f) = books s := books_modCh rfl

@[simp] theorem books_modRb (s : State) (c : Chan) (f : Rebuilder → Rebuilder) : books (s.modRb c f) = books s := books_modCh rfl

@[simp] theorem books_modGates (s : State) (c : Chan) (f : Gates → Gates) : books (s.modGates c f) = books s := books_modCh rfl

@[simp] theorem books_modProt (s : State) (f : Protection → Protection) : books (s.modProt f) = books s := rfl

@[simp] theorem books_setCompare (s : State) (c : Chan) (due : Time) (kind : CompareKind) :
    books (s.setCompare c due kind) = books s := books_modSq _ _ _

@[simp] theorem books_pass (s : State) (n : Nat) : books (s.pass n) = books s := by
  have hc : ∀ c, tally ((s.pass n).chan c) = tally (s.chan c) := by
    intro c
    cases hr : s.clockRuns <;> cases c <;> simp only [State.pass, State.chan, hr] <;> rfl
  have hconv : (s.pass n).sched.conv.map (·.entry) = s.sched.conv.map (·.entry) := by
    cases hv : s.sched.conv <;> simp [State.pass, Scheduler.elapse, hv]
  simp only [books, hc, hconv]
  rfl

@[simp] theorem books_carrierRestart (s : State) : books s.carrierRestart = books s :=
  books_map (f := (·.restart s.tb.now)) (fun _ => rfl) rfl rfl rfl rfl rfl rfl

@[simp] theorem books_commutate (s : State) (c : Chan) (t : Time) (peak : Bool) : books (s.commutate c t peak) = books s := by
  have noted : books (s.modSched (·.noteCommutation c)) = books s := by
    have hconv : (s.modSched (·.noteCommutation c)).sched.conv.map (·.entry) = s.sched.conv.map (·.entry) := by
      cases hv : s.sched.conv with
      | none => simp [Scheduler.noteCommutation, hv]
      | some v => simp only [State.modSched_sched, Scheduler.noteCommutation, hv, Option.map_some]; split_ifs <;> rfl
    simp only [books, hconv]
    rfl
  exact (books_modCh rfl).trans noted

/-! ### What enters the timeline (R104 to R107, R117) -/

/-- A plan's request enters as an entry of its channel in a slot that was free, or not at all (log 24). -/
theorem insertRequest_cases (s : State) (c : Chan) (t : Time) (seq : Seq) (r : PlanRequest) :
    s.insertRequest c t seq r = s ∨
      ∃ e : Entry, e.owner = .chan c ∧ s.sched.occupied e.slot = false ∧
        s.insertRequest c t seq r =
          (s.modSched fun q => { q with timeline := insertEntry e q.timeline }).modCh c fun k =>
            { k with requested := k.requested + 1 } := by
  unfold State.insertRequest
  simp only
  split
  · exact .inl rfl
  next h => exact .inr ⟨_, rfl, Bool.eq_false_iff.2 h, rfl⟩

/-- What the turn of aux entry i can make of the timeline: nothing, a merge into the entries of a slot, or an entry of its own in a slot
that was free. -/
def AuxMoved (q : Scheduler) (i : Nat) (tl : List Entry) : Prop :=
  tl = q.timeline ∨ (∃ n, tl = q.timeline.map fun e => if e.slot = n then e.merge else e) ∨
    ∃ e : Entry, e.owner = .aux i ∧ q.occupied e.slot = false ∧ tl = insertEntry e q.timeline

theorem insertAux_cases (q : Scheduler) (i : Nat) (a : AuxEntry) (t : Time) (m : Seq) :
    ∃ tl, q.insertAux i a t m = { q with timeline := tl } ∧ AuxMoved q i tl := by
  unfold Scheduler.insertAux
  simp only
  split
  · exact ⟨_, rfl, .inr (.inl ⟨_, rfl⟩)⟩
  next h => exact ⟨_, rfl, .inr (.inr ⟨_, rfl, Bool.eq_false_iff.2 h, rfl⟩)⟩

theorem auxTurn_cases (q : Scheduler) (t : Time) (m : Seq) (i : Nat) :
    ∃ aux tl, Scheduler.auxTurn t m q i = { q with aux := aux, timeline := tl } ∧ AuxMoved q i tl := by
  unfold Scheduler.auxTurn
  split
  · exact ⟨_, _, rfl, .inl rfl⟩
  next a _ =>
    obtain ⟨tl, hq, htl⟩ := insertAux_cases q i a t m
    split_ifs
    · exact ⟨_, _, rfl, .inl rfl⟩
    · exact ⟨_, tl, by rw [hq], htl⟩
    · exact ⟨_, _, rfl, .inl rfl⟩

/-! ### What a part of a step can do to the books -/

/-- The conversion in progress leaves the converter and is counted for its channel (R110). -/
def conversionCounted (s : State) (v : Conversion) : State :=
  let t := s.modSched fun q => { q with conv := none }
  match v.entry.owner with
  | .chan c => t.modCh c fun k => { k with converted := k.converted + 1 }
  | .aux _ => t

/-- From s to t a part of a step has done its work: it has left the books alone, or moved an entry, counted it, queued a record or
buffered a frame. The outbound queue is as it was. -/
inductive Works : State → State → Prop
  | same {s t : State} : books t = books s → Works s t
  | trans {s t u : State} : Works s t → Works t u → Works s u
  | recorded (s : State) (code : EventCode) (c : Option Chan) (detail : Nat) : Works s (s.queueEvent code c detail)
  | buffered {s : State} (f : Frame) : s.link.rxBuf.length < 2 → Works s (s.modLink fun l => { l with rxBuf := l.rxBuf ++ [f] })
  | requested (s : State) (c : Chan) (t : Time) (seq : Seq) (r : PlanRequest) : Works s (s.insertRequest c t seq r)
  | auxInserted (s : State) (t : Time) (m : Seq) (i : Nat) : Works s (s.modSched (Scheduler.auxTurn t m · i))
  | flushed (s : State) (c : Chan) : Works s (s.flushChan c)
  | allFlushed (s : State) : Works s s.flushAll
  | started {s : State} {e : Entry} : s.sched.conv = none → e ∈ s.sched.timeline → Works s (s.startConversion e)
  | completed {s : State} {v : Conversion} : s.sched.conv.map (·.entry) = some v.entry → Works s (conversionCounted s v)
  | expired {s : State} {c : Chan} {e : Entry} : e ∈ s.sched.timeline → e.owner = .chan c → Works s (s.removeLate c e)

/-- From s to t a step or a part of one has done its work and the link has sent, taken and dropped frames; or every block has been
reset. -/
inductive Moves : State → State → Prop
  | works {s t : State} : Works s t → Moves s t
  | trans {s t u : State} : Moves s t → Moves t u → Moves s u
  | replied {s : State} (type tag : Byte) (a : Answer) : s.link.out.length < 24 → Moves s (s.pushReply type tag a)
  | reported (s : State) (c : Chan) (bytes : List Byte) : Moves s (s.modLink (·.handReport c bytes))
  | finished (s : State) : Moves s (s.modLink Link.finish)
  | ready (s : State) : Moves s (s.modLink Link.ready)
  | taken (s : State) : Moves s (s.modLink fun l => { l with rxBuf := l.rxBuf.tail })
  | reset {s t : State} (c : books t = books State.reset) : Moves s t


/-! ### The sample counters over what a step does (R121) -/

theorem outstanding_eq_books (s : State) (c : Chan) :
    s.sched.outstanding c =
      (books s).timeline.countP (·.ownedBy c) + (books s).converting.toList.countP (·.ownedBy c) := by
  unfold Scheduler.outstanding Scheduler.waiting Scheduler.converting books
  cases s.sched.conv <;> simp [List.countP_cons]

theorem countersAgree_of_books {s t : State} (h : books t = books s) (hs : s.countersAgree) : t.countersAgree := by
  intro c
  have ht : tally (t.chan c) = tally (s.chan c) := congrFun (congrArg Books.tally h) c
  obtain ⟨hreq, hconv, hlate, hflush⟩ := Tally.mk.injEq .. ▸ ht
  rw [hreq, hconv, hlate, hflush, outstanding_eq_books, h, ← outstanding_eq_books]
  exact hs c

/-- A channel's entry counts as the channel's, and as no other's. -/
theorem ownedBy_of_owner {e : Entry} {c : Chan} (h : e.owner = .chan c) (x : Chan) : e.ownedBy x = decide (x = c) := by
  unfold Entry.ownedBy
  rw [h]
  cases c <;> cases x <;> rfl

theorem ownedBy_aux {e : Entry} {i : Nat} (h : e.owner = .aux i) (x : Chan) : e.ownedBy x = false := by
  unfold Entry.ownedBy
  rw [h]
  rfl

theorem countP_insertEntry (e : Entry) (es : List Entry) (p : Entry → Bool) :
    (insertEntry e es).countP p = es.countP p + if p e then 1 else 0 := by
  rw [(perm_insertEntry e es).countP_eq, List.countP_cons]

/-- A member that leaves a list leaves its count behind. -/
theorem countP_erase_add {e : Entry} {es : List Entry} (h : e ∈ es) (p : Entry → Bool) :
    (es.erase e).countP p + (if p e then 1 else 0) = es.countP p := by
  rw [(List.perm_cons_erase h).countP_eq, List.countP_cons]

theorem waiting_flushed (q : Scheduler) (c x : Chan) :
    (q.timeline.filter fun e => !e.ownedBy c).countP (·.ownedBy x) = if x = c then 0 else q.waiting x := by
  rw [List.countP_filter, Scheduler.waiting]
  split_ifs with h
  · rw [h, List.countP_eq_zero]
    simp
  · refine List.countP_congr fun e _ => ?_
    cases ho : e.owner with
    | chan y => rw [ownedBy_of_owner ho, ownedBy_of_owner ho]; simp; rintro rfl; exact fun hc => h hc.symm
    | aux i => simp [ownedBy_aux ho]

/-- The identity for one channel, by its counters and what it has outstanding. -/
def Tally.Agrees (k : Tally) (n : Nat) : Prop := k.requested = k.converted + k.late + k.flushed + BitVec.ofNat 32 n

theorem countersAgree_iff (s : State) : s.countersAgree ↔ ∀ c, (tally (s.chan c)).Agrees (s.sched.outstanding c) := Iff.rfl

theorem ofNat_succ (n : Nat) : BitVec.ofNat 32 (n + 1) = BitVec.ofNat 32 n + 1 := BitVec.ofNat_add _ _

theorem Tally.Agrees.requested {k : Tally} {n : Nat} (h : k.Agrees n) :
    Tally.Agrees { k with requested := k.requested + 1 } (n + 1) := by
  unfold Tally.Agrees at h ⊢
  rw [h, ofNat_succ]
  ring

theorem Tally.Agrees.converted {k : Tally} {n : Nat} (h : k.Agrees (n + 1)) :
    Tally.Agrees { k with converted := k.converted + 1 } n := by
  unfold Tally.Agrees at h ⊢
  rw [h, ofNat_succ]
  ring

theorem Tally.Agrees.late {k : Tally} {n : Nat} (h : k.Agrees (n + 1)) : Tally.Agrees { k with late := k.late + 1 } n := by
  unfold Tally.Agrees at h ⊢
  rw [h, ofNat_succ]
  ring

theorem Tally.Agrees.flushed {k : Tally} {n m : Nat} (h : k.Agrees (n + m)) :
    Tally.Agrees { k with flushed := k.flushed + BitVec.ofNat 32 n } m := by
  unfold Tally.Agrees at h ⊢
  rw [h, BitVec.ofNat_add]
  ring

theorem countersAgree_insertRequest {s : State} (c : Chan) (t : Time) (seq : Seq) (r : PlanRequest) (hs : s.countersAgree) :
    (s.insertRequest c t seq r).countersAgree := by
  rcases insertRequest_cases s c t seq r with h | ⟨e, ho, _, h⟩ <;> rw [h]
  · exact hs
  rw [countersAgree_iff] at hs ⊢
  intro x
  have hx := hs x
  rw [State.chan_modCh]
  simp only [Scheduler.outstanding, Scheduler.waiting, State.modCh_sched, State.modSched_sched, countP_insertEntry,
    ownedBy_of_owner ho] at hx ⊢
  by_cases h : x = c
  · rw [if_pos h, if_pos (decide_eq_true h), Nat.add_right_comm]
    exact hx.requested
  · rw [if_neg h, if_neg (by simpa using h)]
    exact hx

theorem countersAgree_auxTurn {s : State} (t : Time) (m : Seq) (i : Nat) (hs : s.countersAgree) :
    (s.modSched (Scheduler.auxTurn t m · i)).countersAgree := by
  have counted : ∀ c, (Scheduler.auxTurn t m s.sched i).outstanding c = s.sched.outstanding c := by
    intro c
    obtain ⟨aux, tl, hq, htl⟩ := auxTurn_cases s.sched t m i
    rw [hq]
    refine congrArg (· + s.sched.converting c) ?_
    rcases htl with h | ⟨n, h⟩ | ⟨e, ho, _, h⟩ <;> simp only [Scheduler.waiting, h]
    · rw [List.countP_map]
      refine List.countP_congr fun e _ => ?_
      simp only [Function.comp_apply]
      split_ifs <;> rfl
    · rw [countP_insertEntry, ownedBy_aux ho, if_neg Bool.false_ne_true]
      rfl
  intro c
  rw [State.modSched_sched, counted]
  exact hs c

theorem countersAgree_flushChan {s : State} (c : Chan) (hs : s.countersAgree) : (s.flushChan c).countersAgree := by
  rw [countersAgree_iff] at hs ⊢
  intro x
  have hx := hs x
  have hw : (s.flushChan c).sched.outstanding x = (if x = c then 0 else s.sched.waiting x) + s.sched.converting x :=
    congrArg (· + _) (waiting_flushed s.sched c x)
  rw [hw]
  by_cases h : x = c
  · subst h
    rw [State.chan_flushChan_same, if_pos rfl, Nat.zero_add]
    exact hx.flushed
  · rw [State.chan_flushChan_other _ h, if_neg h]
    exact hx

theorem countersAgree_flushAll {s : State} (hs : s.countersAgree) : s.flushAll.countersAgree := by
  rw [countersAgree_iff] at hs ⊢
  intro c
  have hc : tally (s.flushAll.chan c) =
      { tally (s.chan c) with flushed := (s.chan c).flushed + BitVec.ofNat 32 (s.sched.waiting c) } := by
    cases c <;> rfl
  have hw : s.flushAll.sched.outstanding c = s.sched.converting c := Nat.zero_add _
  rw [hc, hw]
  exact (hs c).flushed

theorem countersAgree_startConversion {s : State} {e : Entry} (hconv : s.sched.conv = none) (he : e ∈ s.sched.timeline)
    (hs : s.countersAgree) : (s.startConversion e).countersAgree := by
  rw [countersAgree_iff] at hs ⊢
  intro c
  have hc := hs c
  simp only [Scheduler.outstanding, Scheduler.waiting, Scheduler.converting, hconv, Nat.add_zero] at hc
  simp only [Scheduler.outstanding, Scheduler.waiting, Scheduler.converting, State.startConversion, State.modSched_sched,
    countP_erase_add he]
  exact hc

theorem countersAgree_conversionCounted {s : State} {v : Conversion} (hv : s.sched.conv.map (·.entry) = some v.entry)
    (hs : s.countersAgree) : (conversionCounted s v).countersAgree := by
  obtain ⟨w, hw, hwe⟩ := Option.map_eq_some_iff.1 hv
  rw [countersAgree_iff] at hs ⊢
  intro x
  have hx := hs x
  simp only [Scheduler.outstanding, Scheduler.converting, hw, hwe] at hx
  unfold conversionCounted
  simp only
  cases ho : v.entry.owner with
  | chan c =>
    rw [ownedBy_of_owner ho] at hx
    simp only [State.chan_modCh, State.modCh_sched]
    by_cases h : x = c
    · rw [if_pos h]
      rw [if_pos (decide_eq_true h)] at hx
      exact hx.converted
    · rw [if_neg h]
      rw [if_neg (by simpa using h)] at hx
      exact hx
  | aux i =>
    rw [ownedBy_aux ho, if_neg Bool.false_ne_true] at hx
    exact hx

theorem countersAgree_removeLate {s : State} {c : Chan} {e : Entry} (he : e ∈ s.sched.timeline) (ho : e.owner = .chan c)
    (hs : s.countersAgree) : (s.removeLate c e).countersAgree := by
  refine countersAgree_of_books (books_modRb _ _ _) ?_
  rw [countersAgree_iff] at hs ⊢
  intro x
  have hx := hs x
  simp only [Scheduler.outstanding, Scheduler.waiting] at hx
  rw [← countP_erase_add he, ownedBy_of_owner ho, Nat.add_right_comm] at hx
  rw [State.chan_modCh]
  by_cases h : x = c
  · rw [if_pos h]
    rw [if_pos (decide_eq_true h)] at hx
    exact hx.late
  · rw [if_neg h]
    rw [if_neg (by simpa using h)] at hx
    exact hx

theorem Works.countersAgree {s t : State} (h : Works s t) : s.countersAgree → t.countersAgree := by
  induction h with
  | same h => exact countersAgree_of_books h
  | trans _ _ ih ih' => exact fun hs => ih' (ih hs)
  | recorded => exact id
  | buffered => exact id
  | requested _ c t seq r => exact countersAgree_insertRequest c t seq r
  | auxInserted _ t m i => exact countersAgree_auxTurn t m i
  | flushed _ c => exact countersAgree_flushChan c
  | allFlushed => exact countersAgree_flushAll
  | started hconv he => exact countersAgree_startConversion hconv he
  | completed hv => exact countersAgree_conversionCounted hv
  | expired he ho => exact countersAgree_removeLate he ho

theorem countersAgree_reset : State.reset.countersAgree := fun c => by cases c <;> rfl

theorem Moves.countersAgree {s t : State} (h : Moves s t) : s.countersAgree → t.countersAgree := by
  induction h with
  | works h => exact h.countersAgree
  | trans _ _ ih ih' => exact fun hs => ih' (ih hs)
  | replied => exact id
  | reported => exact id
  | finished => exact id
  | ready => exact id
  | taken => exact id
  | reset h => exact fun _ => countersAgree_of_books h countersAgree_reset


/-! ### The bounds of the queues over what a step does (R104, R168, R170, R172) -/

/-- The bounds of the event queue (R172). -/
def EventsFit (es : List EventRecord) : Prop := es.length ≤ 16 ∧ (es.map fun r => (r.code, r.chan)).Nodup

/-- The bounds of the outbound queue (R170). -/
def OutFits (out : List OutFrame) : Prop := out.length ≤ 24 ∧ ∀ c, out.countP (·.isReport c) ≤ 1

/-- The bounds of the link's three queues. -/
structure QueuesFit (l : Link) : Prop where
  events : EventsFit l.events
  out : OutFits l.out
  rxBuf : l.rxBuf.length ≤ 2

theorem queuesBounded_iff (s : State) : s.queuesBounded ↔ QueuesFit s.link := by
  constructor
  · rintro ⟨hevents, hlen, hreports, hrx⟩
    exact ⟨hevents, ⟨hlen, hreports⟩, hrx⟩
  · rintro ⟨hevents, ⟨hlen, hreports⟩, hrx⟩
    exact ⟨hevents, hlen, hreports, hrx⟩

theorem EventsFit.sublist {es fs : List EventRecord} (h : EventsFit es) (hsub : fs.Sublist es) : EventsFit fs :=
  ⟨hsub.length_le.trans h.1, (hsub.map _).nodup h.2⟩

theorem OutFits.sublist {out rest : List OutFrame} (h : OutFits out) (hsub : rest.Sublist out) : OutFits rest :=
  ⟨hsub.length_le.trans h.1, fun c => (hsub.countP_le).trans (h.2 c)⟩

theorem outFits_snoc {out : List OutFrame} {f : OutFrame} (hlen : out.length < 24)
    (hf : ∀ c, out.countP (·.isReport c) + (if f.isReport c then 1 else 0) ≤ 1) : OutFits (out ++ [f]) := by
  refine ⟨by rw [List.length_append]; exact hlen, fun c => ?_⟩
  rw [List.countP_append, List.countP_singleton]
  exact hf c

/-- A frame that is no report takes a free place. -/
theorem OutFits.snoc_other {out : List OutFrame} {f : OutFrame} (h : OutFits out) (hlen : out.length < 24)
    (hf : ∀ c, f.isReport c = false) : OutFits (out ++ [f]) :=
  outFits_snoc hlen fun c => by rw [hf c]; exact h.2 c

theorem same_eq_true (a b : EventRecord) : a.same b = true ↔ (a.code, a.chan) = (b.code, b.chan) := by
  simp [EventRecord.same]

/-- A record coalesces with one of its code and channel, or joins where there is none and leaves the last one out of a full queue. -/
theorem EventsFit.queueEvent {l : Link} (r : EventRecord) (h : EventsFit l.events) : EventsFit (l.queueEvent r).events := by
  unfold Link.queueEvent
  split
  · have hkeys : (l.events.map fun e => if r.same e then { e with repeats := min 255 (e.repeats + 1) } else e).map
        (fun e => (e.code, e.chan)) = l.events.map fun e => (e.code, e.chan) := by
      rw [List.map_map]
      refine List.map_congr_left fun e _ => ?_
      simp only [Function.comp_apply]
      split_ifs <;> rfl
    exact ⟨by rw [List.length_map]; exact h.1, by rw [hkeys]; exact h.2⟩
  next hnew =>
    have hperm : (l.events.take (l.events.length - l.batch) ++
        insertRecord r (l.events.drop (l.events.length - l.batch))).Perm (r :: l.events) := by
      refine ((perm_insertRecord r _).append_left _).trans ?_
      refine List.perm_middle.trans ?_
      rw [List.take_append_drop]
    have hnodup : ((r :: l.events).map fun e => (e.code, e.chan)).Nodup := by
      refine List.nodup_cons.2 ⟨fun hm => hnew ?_, h.2⟩
      obtain ⟨e, he, hk⟩ := List.mem_map.1 hm
      exact List.any_eq_true.2 ⟨e, he, (same_eq_true r e).2 hk.symm⟩
    have hevs := (hperm.map fun e => (e.code, e.chan)).nodup_iff.2 hnodup
    simp only
    split
    next hroom => exact ⟨by rw [hperm.length_eq]; exact hroom, hevs⟩
    next => exact ⟨List.length_take_le _ _, ((List.take_sublist _ _).map _).nodup hevs⟩

theorem QueuesFit.queueEvent {l : Link} (r : EventRecord) (h : QueuesFit l) : QueuesFit (l.queueEvent r) := by
  rw [Link.queueEvent_eq]
  exact ⟨h.events.queueEvent r, h.out, h.rxBuf⟩

theorem QueuesFit.moveInto {l : Link} (h : QueuesFit l) : QueuesFit l.moveInto := by
  unfold Link.moveInto
  split
  next hroom =>
    rcases l.moveEvent_cases with ⟨_, hm⟩ | ⟨r, es, he, hm⟩ <;> rw [hm]
    · exact ⟨h.events, h.out, h.rxBuf⟩
    · exact ⟨h.events.sublist (he ▸ List.sublist_cons_self r es), h.out.snoc_other hroom fun _ => rfl, h.rxBuf⟩
  next => exact ⟨h.events, h.out, h.rxBuf⟩

theorem QueuesFit.ready {l : Link} (h : QueuesFit l) : QueuesFit l.ready := by
  unfold Link.ready
  split
  next f rest ho =>
    rw [Link.begin_eq]
    exact ⟨h.events, h.out.sublist (ho ▸ List.sublist_cons_self f rest), h.rxBuf⟩
  next => exact ⟨h.events, h.out, h.rxBuf⟩

theorem QueuesFit.finish {l : Link} (h : QueuesFit l) : QueuesFit l.finish := by
  have waiting : QueuesFit l.beginWaiting := by
    unfold Link.beginWaiting
    split
    · exact h.ready
    next r es he =>
      split_ifs
      · exact h.ready.moveInto
      · exact ⟨h.events.sublist (he ▸ List.sublist_cons_self r es), h.out, h.rxBuf⟩
  unfold Link.finish
  split
  · exact waiting
  · split_ifs
    · exact h.moveInto
    · exact h

theorem handReport_others (l : Link) (c : Chan) (bytes : List Byte) :
    (l.handReport c bytes).events = l.events ∧ (l.handReport c bytes).rxBuf = l.rxBuf := by
  unfold Link.handReport
  split_ifs <;> exact ⟨rfl, rfl⟩

/-- A report replaces its channel's or joins as its channel's only one. -/
theorem OutFits.handReport {l : Link} (c : Chan) (bytes : List Byte) (h : OutFits l.out) : OutFits (l.handReport c bytes).out := by
  cases hany : l.out.any (·.isReport c) with
  | true =>
    rw [(handReport_replaced bytes hany).1]
    refine ⟨by rw [List.length_map]; exact h.1, fun x => ?_⟩
    have hsame : (fun f : OutFrame => f.isReport x) ∘ (fun f => if f.isReport c then .report c bytes else f) = (·.isReport x) := by
      funext f
      cases f with
      | report k _ => by_cases hk : k = c <;> simp [OutFrame.isReport, hk]
      | reply => rfl
      | event => rfl
    rw [List.countP_map, hsame]
    exact h.2 x
  | false =>
    by_cases hroom : l.out.length < 24
    · rw [handReport_joined bytes hany hroom]
      refine outFits_snoc hroom fun x => ?_
      by_cases hx : c = x
      · subst hx
        have hnone : l.out.countP (·.isReport c) = 0 := List.countP_eq_zero.2 (by simpa using hany)
        rw [hnone]
        split_ifs <;> decide
      · rw [show (OutFrame.report c bytes).isReport x = false by simp [OutFrame.isReport, hx]]
        exact h.2 x
    · rw [(handReport_skipped bytes hany (Nat.not_lt.1 hroom)).1]
      exact h

/-- The timeline holds one entry a slot (R104), read off its list of entries. -/
def OnePerSlot (es : List Entry) : Prop := (es.map (·.slot)).Nodup

theorem OnePerSlot.sublist {es fs : List Entry} (h : OnePerSlot es) (hsub : fs.Sublist es) : OnePerSlot fs :=
  (hsub.map _).nodup h

theorem OnePerSlot.insertEntry {q : Scheduler} {e : Entry} (h : OnePerSlot q.timeline) (hfree : q.occupied e.slot = false) :
    OnePerSlot (insertEntry e q.timeline) := by
  rw [OnePerSlot, ((perm_insertEntry e q.timeline).map (·.slot)).nodup_iff, List.map_cons, List.nodup_cons]
  refine ⟨fun hm => ?_, h⟩
  obtain ⟨x, hx, hslot⟩ := List.mem_map.1 hm
  have := List.any_eq_false.1 hfree x hx
  simp [hslot] at this

theorem OnePerSlot.auxMoved {q : Scheduler} {i : Nat} {tl : List Entry} (h : OnePerSlot q.timeline) (htl : AuxMoved q i tl) :
    OnePerSlot tl := by
  rcases htl with rfl | ⟨n, rfl⟩ | ⟨e, _, hfree, rfl⟩
  · exact h
  · have hslots : (fun e : Entry => e.slot) ∘ (fun e => if e.slot = n then e.merge else e) = (·.slot) := by
      funext e
      simp only [Function.comp_apply]
      split_ifs <;> rfl
    unfold OnePerSlot
    rw [List.map_map, hslots]
    exact h
  · exact h.insertEntry hfree

/-- The bounds of the link's queues and of the timeline together. -/
structure Bounded (s : State) : Prop where
  queues : QueuesFit s.link
  timeline : OnePerSlot s.sched.timeline

theorem bounded_of_books {s t : State} (h : books t = books s) (hs : Bounded s) : Bounded t := by
  have hevents : t.link.events = s.link.events := congrArg Books.events h
  have hout : t.link.out = s.link.out := congrArg Books.out h
  have hrx : t.link.rxBuf = s.link.rxBuf := congrArg Books.rxBuf h
  have htl : t.sched.timeline = s.sched.timeline := congrArg Books.timeline h
  exact ⟨⟨by rw [hevents]; exact hs.queues.events, by rw [hout]; exact hs.queues.out, by rw [hrx]; exact hs.queues.rxBuf⟩,
    by rw [htl]; exact hs.timeline⟩

theorem bounded_insertRequest {s : State} (c : Chan) (t : Time) (seq : Seq) (r : PlanRequest) (hs : Bounded s) :
    Bounded (s.insertRequest c t seq r) := by
  rcases insertRequest_cases s c t seq r with h | ⟨e, _, hfree, h⟩ <;> rw [h]
  · exact hs
  · exact ⟨hs.queues, hs.timeline.insertEntry hfree⟩

theorem bounded_auxTurn {s : State} (t : Time) (m : Seq) (i : Nat) (hs : Bounded s) :
    Bounded (s.modSched (Scheduler.auxTurn t m · i)) := by
  obtain ⟨aux, tl, hq, htl⟩ := auxTurn_cases s.sched t m i
  refine ⟨hs.queues, ?_⟩
  rw [State.modSched_sched, hq]
  exact hs.timeline.auxMoved htl

theorem Works.bounded {s t : State} (h : Works s t) : Bounded s → Bounded t := by
  induction h with
  | same h => exact bounded_of_books h
  | trans _ _ ih ih' => exact fun hs => ih' (ih hs)
  | recorded => exact fun hs => ⟨hs.queues.queueEvent _, hs.timeline⟩
  | buffered f hroom =>
    exact fun hs => ⟨⟨hs.queues.events, hs.queues.out, by simpa using hroom⟩, hs.timeline⟩
  | requested _ c t seq r => exact bounded_insertRequest c t seq r
  | auxInserted _ t m i => exact bounded_auxTurn t m i
  | flushed => exact fun hs => ⟨hs.queues, hs.timeline.sublist List.filter_sublist⟩
  | allFlushed => exact fun hs => ⟨hs.queues, List.nodup_nil⟩
  | started => exact fun hs => ⟨hs.queues, hs.timeline.sublist List.erase_sublist⟩
  | @completed s v =>
    intro hs
    unfold conversionCounted
    cases v.entry.owner <;> exact ⟨hs.queues, hs.timeline⟩
  | expired => exact fun hs => ⟨hs.queues, hs.timeline.sublist List.erase_sublist⟩

theorem bounded_reset : Bounded State.reset := by
  refine ⟨⟨⟨by decide, List.nodup_nil⟩, ⟨by decide, fun c => ?_⟩, by decide⟩, List.nodup_nil⟩
  exact Nat.zero_le 1

theorem Moves.bounded {s t : State} (h : Moves s t) : Bounded s → Bounded t := by
  induction h with
  | works h => exact h.bounded
  | trans _ _ ih ih' => exact fun hs => ih' (ih hs)
  | replied type tag a hroom =>
    exact fun hs => ⟨⟨hs.queues.events, hs.queues.out.snoc_other hroom fun _ => rfl, hs.queues.rxBuf⟩, hs.timeline⟩
  | reported s c bytes =>
    intro hs
    obtain ⟨hevents, hrx⟩ := handReport_others s.link c bytes
    exact ⟨⟨hevents ▸ hs.queues.events, hs.queues.out.handReport c bytes, hrx ▸ hs.queues.rxBuf⟩, hs.timeline⟩
  | finished => exact fun hs => ⟨hs.queues.finish, hs.timeline⟩
  | ready => exact fun hs => ⟨hs.queues.ready, hs.timeline⟩
  | taken =>
    exact fun hs => ⟨⟨hs.queues.events, hs.queues.out, (List.tail_sublist _).length_le.trans hs.queues.rxBuf⟩, hs.timeline⟩
  | reset h => exact fun _ => bounded_of_books h bounded_reset


/-! ### The work of the parts of a step -/

theorem Works.refl (s : State) : Works s s := .same rfl

theorem works_ite {p : Prop} [Decidable p] {s a b : State} (ha : Works s a) (hb : Works s b) : Works s (if p then a else b) := by
  split_ifs
  · exact ha
  · exact hb

theorem works_foldl {α : Type} {f : State → α → State} (hf : ∀ s a, Works s (f s a)) (l : List α) (s : State) :
    Works s (l.foldl f s) := by
  induction l generalizing s with
  | nil => exact .refl s
  | cons a l ih => exact (hf s a).trans (ih _)

/-- The outbound queue is the link's own: no part of a step's work touches it. -/
theorem Works.out {s t : State} (h : Works s t) : t.link.out = s.link.out := by
  induction h with
  | same h => exact congrArg Books.out h
  | trans _ _ ih ih' => exact ih'.trans ih
  | recorded s code c detail => rw [State.queueEvent_eq, Link.queueEvent_eq]
  | requested s c t seq r =>
    rcases insertRequest_cases s c t seq r with h | ⟨_, _, _, h⟩
    · rw [h]
    · rw [h]; rfl
  | @completed s v => unfold conversionCounted; cases v.entry.owner <;> rfl
  | buffered => rfl
  | auxInserted => rfl
  | flushed => rfl
  | allFlushed => rfl
  | started => rfl
  | expired => rfl

theorem Works.modCh {s t : State} {c : Chan} {f : Channel → Channel} (h : Works s t)
    (hf : tally (f (t.chan c)) = tally (t.chan c)) : Works s (t.modCh c f) :=
  h.trans (.same (books_modCh hf))

theorem Works.queueEvent {s t : State} (h : Works s t) (code : EventCode) (c : Option Chan) (detail : Nat) :
    Works s (t.queueEvent code c detail) :=
  h.trans (.recorded t code c detail)

theorem works_modProt (s : State) (f : Protection → Protection) : Works s (s.modProt f) := .same rfl

theorem works_modSup (s : State) (f : Supervision → Supervision) : Works s (s.modSup f) := .same rfl

theorem works_modSq (s : State) (c : Chan) (f : StepSeq → StepSeq) : Works s (s.modSq c f) := .same (books_modSq s c f)

theorem works_modRb (s : State) (c : Chan) (f : Rebuilder → Rebuilder) : Works s (s.modRb c f) := .same (books_modRb s c f)

/-! The ends of a run and the trip causes. -/

theorem works_endRun (s : State) (c : Chan) : Works s (s.endRun c) := (Works.flushed s c).modCh rfl

theorem works_toStopped (s : State) (c : Chan) : Works s (s.toStopped c) := ((works_endRun s c).modCh rfl).modCh rfl

theorem works_toBraking (s : State) (c : Chan) : Works s (s.toBraking c) := ((works_endRun s c).modCh rfl).modCh rfl

theorem works_calFailed (s : State) (c : Chan) (f : CalFailure) : Works s (s.calFailed c f) :=
  (works_toStopped s c).queueEvent _ _ _

theorem works_enterTripped (s : State) (c : Chan) (k : TripCause) : Works s (s.enterTripped c k) :=
  (((works_endRun s c).modCh rfl).modCh rfl).queueEvent _ _ _

theorem works_reachCause (s : State) (c : Chan) (k : TripCause) : Works s (s.reachCause c k) := by
  rcases s.reachCause_cases c k with ⟨_, h⟩ | ⟨_, h⟩ | ⟨_, _, h⟩ | ⟨_, _, _, h⟩ <;> rw [h]
  · exact works_enterTripped s c k
  · exact ((Works.refl s).modCh rfl).queueEvent _ _ _
  · exact (works_calFailed s c _).queueEvent _ _ _
  · exact .recorded s _ _ _

theorem works_sendCause (s : State) (k : TripCause) (who : ChanState → Bool) : Works s (s.sendCause k who) :=
  works_foldl (fun a c => works_ite (works_reachCause a c k) (.refl a)) _ _

theorem works_faultAsserted (s : State) (c : Chan) : Works s (s.faultAsserted c) :=
  (((Works.refl s).modCh rfl).modCh rfl).trans (works_reachCause _ c _)

theorem works_sampleFaults (s : State) : Works s s.sampleFaults :=
  (works_modProt s fun p => { p with levels := p.pins }).trans
    (works_foldl (f := fun a c => if a.prot.pins.get c then a.faultAsserted c else a)
      (fun a c => works_ite (works_faultAsserted a c) (.refl a)) _ _)

/-! The step sequencer. -/

@[simp] theorem books_runBegins (s : State) (c : Chan) (t : Time) : books (s.runBegins c t) = books s := by
  simp only [State.runBegins]
  split <;> simp

theorem works_startFailed (s : State) (c : Chan) : Works s (s.startFailed c) := (works_toStopped s c).queueEvent _ _ _

@[simp] theorem books_enterSegment (s : State) (c : Chan) (i : Nat) (t : Time) : books (s.enterSegment c i t) = books s := by
  have entered : ∀ (u : State) x, books (u.modCh c fun k => { k with state := x }) = books u := fun u x => books_modCh rfl
  simp only [State.enterSegment]
  split <;> simp [entered]

theorem works_advanceRun (s : State) (c : Chan) (t : Time) (peak : Bool) : Works s (s.advanceRun c t peak) := by
  simp only [State.advanceRun]
  split_ifs
  · exact .same (by simp)
  · exact .same (by simp)
  · exact .same (by simp)
  · exact (works_modSq s c _).trans (works_startFailed _ c)

theorem works_lostSyncStep (s : State) (c : Chan) : Works s (s.lostSyncStep c) := works_ite (works_reachCause s c _) (.refl s)

theorem works_closedCommutation (s : State) (c : Chan) (t : Time) (peak : Bool) (kind : CompareKind) :
    Works s (s.closedCommutation c t peak kind) := by
  simp only [State.closedCommutation]
  refine works_ite ((Works.queueEvent (.same ?_) _ _ _).trans (works_lostSyncStep _ c)) (.same ?_) <;> simp

theorem works_applyCompare (s : State) (c : Chan) (t : Time) (peak : Bool) : Works s (s.applyCompare c t peak) := by
  simp only [State.applyCompare]
  split
  · exact .refl s
  · refine works_ite ?_ (.refl s)
    split
    · exact works_advanceRun s c t peak
    · exact works_advanceRun s c t peak
    · exact works_closedCommutation s c t peak _
    · exact .refl s

theorem works_handOver (s : State) (c : Chan) (tzc : Time) (delta : Nat) : Works s (s.handOver c tzc delta) := by
  unfold State.handOver
  split
  · exact .same (books_modSq _ _ _)
  · refine Works.queueEvent (.same ?_) _ _ _
    rw [books_setCompare, books_modSq]
    exact books_modCh rfl

@[simp] theorem books_crossingFound (s : State) (c : Chan) (tzc : Time) : books (s.crossingFound c tzc) = books s :=
  books_modSq _ _ _

theorem works_rampCrossing (s : State) (c : Chan) (tzc : Time) (early : Bool) : Works s (s.rampCrossing c tzc early) := by
  simp only [State.rampCrossing]
  split_ifs
  · exact Works.trans (.same (by simp)) (works_handOver _ c _ _)
  · exact .same (by simp)
  · exact .same (by simp)

theorem works_senseResult (s : State) (c : Chan) (seq : Seq) (raw : Nat) (start : Time) (input floatInput : Nat) :
    Works s (s.senseResult c seq raw start input floatInput) := by
  have classified : ∀ d, Works s (s.classify c start d) := by
    intro d
    simp only [State.classify]
    split_ifs
    · exact works_rampCrossing s c _ _
    · exact .same (by simp [State.closedCrossing])
    · exact .same (by simp)
  simp only [State.senseResult]
  refine works_ite ?_ (.refl s)
  split
  · exact .refl s
  · exact works_ite (.same (by simp)) (classified _)

/-! The monitor and supervision. -/

theorem works_examineBus (s : State) (raw : Nat) : Works s (s.examineBus raw) := by
  simp only [State.examineBus]
  split
  · exact works_modProt s _
  · exact (works_modProt s _).trans (works_sendCause _ _ _)
  · exact (works_modProt s _).trans (works_sendCause _ _ _)

theorem works_examineTemp (s : State) (raw : Nat) : Works s (s.examineTemp raw) := by
  have warned : ∀ (p : Prop) [Decidable p] (u : State), Works u (if p then u.queueEvent .tempWarn none raw else u) :=
    fun _ _ u => works_ite (.recorded u _ _ _) (.refl u)
  simp only [State.examineTemp]
  split
  · exact ((works_modProt s _).trans (warned _ _)).trans (works_sendCause _ _ _)
  · exact (works_modProt s _).trans (warned _ _)

theorem works_auxResult (s : State) (a : AuxSource) (raw merged : Nat) : Works s (s.auxResult a raw merged) := by
  have set := works_modProt s (·.setLatest a { raw := raw, merged := merged, age := 0 })
  cases a with
  | bus => exact set.trans (works_examineBus _ raw)
  | temp => exact set.trans (works_examineTemp _ raw)
  | spare1 => exact set
  | spare2 => exact set

theorem works_busStaleStep (s : State) : Works s s.busStaleStep :=
  works_ite ((works_modProt s _).queueEvent _ _ _) (.refl s)

theorem works_masterWork (s : State) : Works s s.masterWork := by
  have counted : ∀ u : State, Works u u.staleCountStep := fun u =>
    works_ite ((works_modProt u _).trans (works_busStaleStep _)) (works_modProt u _)
  have turned : ∀ (u : State) t m, Works u (u.modSched (·.auxPlanTurn t m)) := fun u t m =>
    (((Works.auxInserted u t m 0).trans (.auxInserted _ t m 1)).trans (.auxInserted _ t m 2)).trans (.auxInserted _ t m 3)
  unfold State.masterWork
  simp only
  refine (Works.trans ?_ (works_modProt _ _)).trans (counted _)
  exact Works.trans (t := { s with tb := s.tb.takeMaster }) (.same rfl) (turned _ _ _)

theorem works_supervisionTrip (s : State) (k : SupTrip) : Works s (s.supervisionTrip k) :=
  ((Works.recorded s _ _ _).trans (works_sendCause _ _ _)).trans (.same rfl)

theorem works_expiryStep (s : State) : Works s s.expiryStep :=
  works_ite (works_ite ((Works.recorded s _ _ _).trans (works_modSup _ _)) (works_supervisionTrip s _)) (.refl s)

theorem works_heartbeatStep (s : State) : Works s s.heartbeatStep := by
  have emptied := works_modSup s fun p => { p with heartbeat := none }
  simp only [State.heartbeatStep]
  split
  · exact .refl s
  · refine works_ite (emptied.trans (works_supervisionTrip _ _)) ?_
    split
    · exact works_ite (emptied.trans (works_modSup _ _)) (emptied.queueEvent _ _ _)
    · exact emptied.trans (works_modSup _ _)

theorem works_slowStep (s : State) : Works s s.slowStep :=
  ((works_modSup s _).trans (works_heartbeatStep _)).trans (works_expiryStep _)

/-! Plans. -/

theorem works_insertRequests (s : State) (c : Chan) (t : Time) (p : Plan) : Works s (s.insertRequests c t p) :=
  works_foldl (f := fun a r => a.insertRequest c t p.seq r) (fun a r => .requested a c t p.seq r) _ _

theorem works_planCurrent (s : State) (c : Chan) (t : Time) : Works s (s.planCurrent c t) := by
  simp only [State.planCurrent]
  split
  · exact .same (books_modCh rfl)
  · have moved : ∀ {u : State} p, Works s u → Works s (u.insertRequests c t p) := fun p h => h.trans (works_insertRequests _ c t p)
    exact works_ite ((moved _ (.same (books_modCh rfl))).trans (.same (books_runBegins _ _ _))) (moved _ (.same (books_modCh rfl)))

/-- The plan handover and the next plan of a channel (R32). -/
theorem works_planTurn (s : State) (c : Chan) (t : Time) (m : Seq) : Works s ((s.planCurrent c t).computePlan c m) :=
  (works_planCurrent s c t).trans (.same (books_modCh rfl))

theorem works_staleWarn (s : State) (c : Chan) : Works s (s.staleWarn c) :=
  works_ite (((Works.refl s).modCh rfl).queueEvent _ _ _) (.refl s)

theorem works_staleTripStep (s : State) (c : Chan) : Works s (s.staleTripStep c) := works_ite (works_reachCause s c _) (.refl s)

theorem works_calTimeoutStep (s : State) (c : Chan) : Works s (s.calTimeoutStep c) := works_ite (works_calFailed s c _) (.refl s)

theorem works_limitStep (s : State) (c : Chan) (n : Nat) : Works s (s.limitStep c n) := works_ite (works_reachCause s c _) (.refl s)

theorem works_calPeriod (s : State) (c : Chan) (t : Time) (m : Seq) : Works s (s.calPeriod c t m) := by
  have counted : Works s ((s.modCh c fun k => { k with calPeriods := min 256 (k.calPeriods + 1) }).calTimeoutStep c) :=
    ((Works.refl s).modCh rfl).trans (works_calTimeoutStep _ c)
  simp only [State.calPeriod]
  exact works_ite (counted.trans (works_planTurn _ c t m)) counted

/-! Conversions. -/

theorem works_calDoneStep (s : State) (c : Chan) : Works s (s.calDoneStep c) :=
  works_ite (works_ite (((works_toStopped s c).modCh rfl).queueEvent _ _ _) (works_calFailed s c _)) (.refl s)

theorem works_channelResult (s : State) (c : Chan) (v : Conversion) (raw : Nat) : Works s (s.channelResult c v raw) := by
  have cal : ∀ seq, Works s (s.calResult c seq raw) := fun seq =>
    works_ite (((Works.refl s).modCh rfl).trans (works_calDoneStep _ c)) (.refl s)
  simp only [State.channelResult]
  split
  · exact cal _
  · exact (works_modRb s c _).trans (works_senseResult _ c _ _ _ _ _)
  · unfold State.shuntResult
    exact works_modRb s c _

theorem works_completeConversion {s : State} {v : Conversion} (raw : Nat) (hv : s.sched.conv.map (·.entry) = some v.entry) :
    Works s (s.completeConversion v raw) := by
  have counted := Works.completed hv
  unfold conversionCounted at counted
  simp only [State.completeConversion]
  split
  next c ho =>
    rw [ho] at counted
    exact counted.trans (works_channelResult _ c v raw)
  next ho _ =>
    rw [ho] at counted
    exact counted.trans (works_auxResult _ _ _ _)
  next ho _ =>
    rw [ho] at counted
    exact counted

/-! ### The owners of the requests -/

/-- What an owner gives back beside its answer. -/
theorem works_fst {s u : State} {a : Answer} (h : Works s u) : Works s (u, a).1 := h

theorem works_onChannel {n : Nat} {owner : Chan → State → State × Answer} {s : State} (h : ∀ c, Works s (owner c s).1) :
    Works s (onChannel n owner s).1 := by
  unfold onChannel
  split
  · exact .refl s
  · exact h _

theorem works_ownSetLink (f : Nat × Nat) (s : State) : Works s (ownSetLink f s).1 := by
  unfold ownSetLink
  split
  · exact .refl s
  · split_ifs <;> exact .refl s

theorem works_ownSleep (s : State) : Works s (ownSleep () s).1 := by
  unfold ownSleep
  split_ifs
  all_goals exact .same rfl

theorem works_ownStatus (f : Nat × Nat) (s : State) : Works s (ownStatus f s).1 := by
  unfold ownStatus
  simp only
  split
  · split
    · exact .refl s
    · exact works_fst (works_ite (.same rfl) (.same rfl))
  · split
    · exact .refl s
    · split
      · exact .refl s
      · exact .same rfl

theorem works_ownRecover (s : State) : Works s (ownRecover () s).1 := by
  unfold ownRecover
  split_ifs
  all_goals exact .same rfl

theorem works_ownSupervise (f : Nat × Nat) (s : State) : Works s (ownSupervise f s).1 := by
  unfold ownSupervise
  split_ifs
  all_goals exact .same rfl

theorem works_ownHeartbeat (n : Nat) (s : State) : Works s (ownHeartbeat n s).1 := by
  unfold ownHeartbeat
  split_ifs
  all_goals exact .same rfl

theorem works_ownCarrier (f : Nat × Nat) (s : State) : Works s (ownCarrier f s).1 := by
  have restarted : ∀ u : State, Works u u.flushAll.carrierRestart := fun u =>
    (Works.allFlushed u).trans (.same (books_carrierRestart _))
  simp only [ownCarrier]
  split_ifs
  · exact .refl s
  · exact .refl s
  · exact .refl s
  · split
    · exact .refl s
    · refine works_fst (Works.trans ?_ (restarted _))
      exact .same rfl

theorem works_ownConverter (f : Levels) (s : State) : Works s (ownConverter f s).1 := by
  unfold ownConverter
  split_ifs
  all_goals exact .same rfl

theorem works_ownAuxPlan (f : Nat × List AuxFields) (s : State) : Works s (ownAuxPlan f s).1 := by
  unfold ownAuxPlan
  split_ifs
  · exact .refl s
  · split
    · exact .refl s
    · exact .same rfl

theorem works_ownLimits (f : LimitFields) (s : State) : Works s (ownLimits f s).1 := by
  unfold ownLimits
  split_ifs
  all_goals exact .same rfl

theorem works_ownSetup (f : Nat × List (Nat × Nat)) (s : State) : Works s (ownSetup f s).1 := by
  refine works_onChannel fun c => ?_
  split
  · exact .refl s
  · exact works_fst (Works.modCh (.refl s) rfl)

theorem works_activateIdle (s : State) (c : Chan) : Works s (s.activateIdle c) := by
  simp only [State.activateIdle]
  exact works_ite (((Works.refl s).modCh rfl).modCh rfl) ((Works.refl s).modCh rfl)

theorem works_ownActivate (n : Nat) (s : State) : Works s (ownActivate n s).1 := by
  refine works_onChannel fun c => ?_
  simp only
  split
  · exact .refl s
  · split
    · exact .refl s
    · split_ifs
      · exact works_fst (Works.modCh (.refl s) rfl)
      · exact .refl s
      · exact works_activateIdle s c

theorem works_ownProfile (f : Nat × Nat × List SegmentFields) (s : State) : Works s (ownProfile f s).1 := by
  refine works_onChannel fun c => ?_
  simp only
  split_ifs
  · exact .refl s
  · exact .refl s
  · split
    · exact .refl s
    · exact works_fst (works_modSq s c _)

theorem works_ownCalibrate (n : Nat) (s : State) : Works s (ownCalibrate n s).1 := by
  refine works_onChannel fun c => ?_
  split_ifs
  · exact .refl s
  · exact .refl s
  · exact works_fst (Works.modCh (.refl s) rfl)

theorem works_ownStart (f : Nat × Option StepFields) (s : State) : Works s (ownStart f s).1 := by
  refine works_onChannel fun c => ?_
  simp only
  split
  · exact .refl s
  · split
    · exact .refl s
    · exact .refl s
    · split_ifs
      · exact .refl s
      · exact .refl s
      · exact works_fst (Works.modCh (.refl s) rfl)
    · split_ifs
      · exact .refl s
      · split
        · exact .refl s
        · exact works_fst (Works.modCh (.refl s) rfl)

theorem works_ownStop (f : Nat × Nat) (s : State) : Works s (ownStop f s).1 := by
  refine works_onChannel fun c => ?_
  split
  · unfold State.stopCoast
    split
    case h_2 => exact works_calFailed s c _
    case h_1 | h_3 | h_4 => exact .refl s
    all_goals exact works_toStopped s c
  · unfold State.stopBrake
    split
    case h_3 => exact works_calFailed s c _
    case h_1 | h_2 | h_4 | h_5 => exact .refl s
    all_goals exact works_toBraking s c
  · exact .refl s

theorem works_ownVectorSet (f : VectorFields) (s : State) : Works s (ownVectorSet f s).1 := by
  refine works_onChannel fun c => ?_
  simp only
  split_ifs
  · exact .refl s
  · exact .refl s
  · exact works_fst (Works.modCh (.refl s) rfl)

theorem works_ownStepSet (f : StepSetFields) (s : State) : Works s (ownStepSet f s).1 := by
  refine works_onChannel fun c => ?_
  simp only
  split_ifs
  · exact .refl s
  · exact .refl s
  · exact works_fst (Works.modCh (.refl s) rfl)

theorem works_ownClearTrip (n : Nat) (s : State) : Works s (ownClearTrip n s).1 := by
  refine works_onChannel fun c => ?_
  split_ifs
  · exact .refl s
  · exact .refl s
  · exact works_fst (Works.modCh (Works.modCh (.refl s) rfl) rfl)

/-! ### The moves of a whole step -/

theorem Moves.refl (s : State) : Moves s s := .works (.refl s)

theorem Moves.andWorks {s t u : State} (h : Moves s t) (h' : Works t u) : Moves s u := h.trans (.works h')

theorem moves_ite {p : Prop} [Decidable p] {s a b : State} (ha : Moves s a) (hb : Moves s b) : Moves s (if p then a else b) := by
  split_ifs
  · exact ha
  · exact hb

/-! Time, and the end of a step. -/

theorem moves_settle (s : State) : Moves s s.settle :=
  Moves.andWorks (moves_ite (.finished s) (.refl s)) (.same rfl)

theorem moves_elapse (s : State) (n : Nat) : Moves s (s.elapse n) := by
  have ended : Moves s s.instantOver := by
    unfold State.instantOver
    exact moves_ite ((Moves.finished s).andWorks (.same rfl)) (.refl s)
  exact moves_ite (.refl s) (ended.andWorks (.same (books_pass _ n)))

theorem moves_waitUntil (s : State) (t : Time) : Moves s (s.waitUntil t) := moves_ite (moves_elapse s _) (.refl s)

/-! The close of a period, and the period starts. -/

theorem moves_emitReport (s : State) (c : Chan) (w : WorkRecord) : Moves s (s.emitReport c w) := by
  have handed : Moves s ({ s.modLink (·.handReport c (s.reportPayload c w)) with fresh := s.fresh + 1 } : State) := by
    refine Moves.andWorks (.reported s c (s.reportPayload c w)) ?_
    exact .same rfl
  exact handed.andWorks (works_modRb _ c (fun r => { r with report := 0 }))

theorem moves_closePeriod (s : State) (c : Chan) : Moves s (s.closePeriod c) := by
  have reported : ∀ u w, Moves u (u.reportStep c w) := fun u w =>
    moves_ite (.works (works_modRb u c _)) (moves_ite (moves_emitReport u c w) (.works (works_modRb u c _)))
  unfold State.closePeriod
  split
  · exact .refl s
  · exact ((Moves.works (works_modRb s c _)).trans (reported _ _)).andWorks (works_limitStep _ c _)

theorem moves_vectorPeriod (s : State) (c : Chan) (t : Time) (m : Seq) : Moves s (s.vectorPeriod c t m) := by
  have set : ∀ u : State, Works u (u.modCh c Channel.vectorStep) := fun u => .same (books_modCh (by
    unfold Channel.vectorStep
    split <;> rfl))
  have warned := (moves_closePeriod s c).andWorks
    (((set _).trans (works_staleWarn _ c)).trans (works_staleTripStep _ c))
  simp only [State.vectorPeriod]
  exact moves_ite (moves_ite (warned.andWorks (works_planTurn _ c t m)) warned) (moves_closePeriod s c)

theorem moves_stepPeriod (s : State) (c : Chan) (t : Time) (m : Seq) : Moves s (s.stepPeriod c t m) := by
  have set : ∀ u : State, Works u (u.modCh c Channel.stepSetpoint) := fun u => .same (books_modCh (by
    unfold Channel.stepSetpoint
    split <;> rfl))
  have closed := moves_closePeriod s c
  simp only [State.stepPeriod]
  refine moves_ite (Moves.andWorks ?_ (works_planTurn _ c t m)) closed
  exact moves_ite (closed.andWorks (set _)) closed

theorem moves_periodWork (s : State) (c : Chan) (t : Time) (m : Seq) : Moves s (s.periodWork c t m) := by
  have inForce : ∀ u : State, Works u (u.modCh c Channel.liveInForce) := fun u => .same (books_modCh (by
    unfold Channel.liveInForce
    split <;> rfl))
  have begun := Moves.works ((Works.modCh (.refl s) rfl).trans (inForce (s.modCh c fun k => k.beginPeriod t m s.tb.h)))
  simp only [State.periodWork]
  split
  case h_1 => exact begun.trans (moves_vectorPeriod _ c t m)
  case h_2 | h_3 | h_4 => exact begun.trans (moves_stepPeriod _ c t m)
  case h_5 => exact begun.andWorks (works_calPeriod _ c t m)
  all_goals exact begun

/-! The device and the link. -/

theorem moves_ready (s : State) : Moves s s.ready := by
  have h : s.ready = if s.mayTransmit = true then s.modLink Link.ready else s.modLink fun l => { l with tx := .idle } := by
    unfold State.ready
    split_ifs <;> rfl
  rw [h]
  exact moves_ite (.ready s) (.works (.same rfl))

theorem works_endStartUp (s : State) : Works s s.endStartUp := by
  refine Works.trans (Works.queueEvent (Works.same ?_) _ _ _) (works_sampleFaults _)
  rw [books_carrierRestart]
  rfl

theorem works_quietEntryNow (s : State) : Works s s.quietEntryNow := by
  have entered : ∀ u : State, Works u u.enterQuiet := fun u =>
    (Works.allFlushed u).trans (.same (books_map (f := Channel.stopPeriods) (fun _ => rfl) rfl rfl rfl rfl rfl rfl))
  rcases s.quietEntryNow_cases with ⟨_, _, _, h⟩ | ⟨_, h⟩ <;> rw [h]
  · refine Works.trans ?_ (entered _)
    exact .same rfl
  · exact .same rfl

theorem moves_enterGap (s : State) : Moves s s.enterGap := moves_ite (moves_ready s) (.works (.same rfl))

theorem works_linkInForce (s : State) (r : Rate) (gap : Nat) : Works s (s.linkInForce r gap) := .same rfl

theorem moves_wakeNow (s : State) : Moves s s.wakeNow := by
  have transmit : ∀ u : State, Moves u u.transmitAgain := by
    intro u
    unfold State.transmitAgain
    split
    · exact .refl u
    · exact moves_ready u
  have awake : Moves s { s with tb := { s.tb with dev := .active, wakeLeft := none }, sup := s.sup.wake } := .works (.same rfl)
  exact ((awake.trans (transmit _)).andWorks (.same (books_carrierRestart _))).andWorks (works_sampleFaults _)

theorem works_receive (s : State) (cs : List Byte) (left : Nat) : Works s (s.receive cs left) := by
  have item : ∀ (u : State) (x : RxItem), Works u (u.rxItem x) := by
    intro u x
    cases x with
    | error f => exact .recorded u _ _ _
    | frame f =>
      unfold State.rxItem
      simp only
      split
      next hroom => exact .buffered f hroom
      next => exact .recorded u _ _ _
  exact (works_foldl item _ s).trans (.same rfl)

theorem works_wakeBegins (s : State) (char : Byte) : Works s (s.wakeBegins char) := works_ite (.same rfl) (.refl s)

/-! ### Every command -/

/-- What a command answers is within the moves. -/
def MovesTo (s : State) (o : Host.Outcome State Fault Refusal) : Prop := ∀ t, o = .next t → Moves s t

theorem movesTo_next (s : State) : MovesTo s (.next s) := by
  intro t ht
  cases ht
  exact .refl s

theorem movesTo_done {s u : State} (h : Moves s u) : MovesTo s (done u) := by
  intro t ht
  cases ht
  exact h.trans (moves_settle u)

theorem movesTo_works {s u : State} (h : Works s u) : MovesTo s (done u) := movesTo_done (.works h)

theorem movesTo_ite {p : Prop} [Decidable p] {s : State} {a b : Host.Outcome State Fault Refusal} (ha : MovesTo s a)
    (hb : MovesTo s b) : MovesTo s (if p then a else b) := by
  split_ifs
  · exact ha
  · exact hb

theorem books_of_reset {t : State} (hch : t.ch = ⟨.reset, .reset, .reset⟩) (hsched : t.sched = .reset) (hevents : t.link.events = [])
    (hout : t.link.out = []) (hrx : t.link.rxBuf = []) : books t = books State.reset := by
  have hc : ∀ c, t.chan c = State.reset.chan c := fun c => congrArg (PerChan.get · c) hch
  simp only [books, hc, hsched, hevents, hout, hrx]
  rfl

theorem movesTo_reset {s u : State} (h : books u = books State.reset) : MovesTo s (done u) := movesTo_done (.reset h)

/-- A request is taken only where the outbound queue has a place, which its owner leaves to the reply (R169). -/
theorem movesTo_takeRequest {α : Type} {type tag : Byte} {pl : Bool} {fields : Option α} {owner : α → State → State × Answer}
    {s : State} (h : ∀ a, Works s (owner a s).1) : MovesTo s (takeRequest type tag pl fields owner s) := by
  intro t ht
  have replied : ∀ {u : State} (a : Answer), s.canTake = true → Works s u → Moves s (u.replied type tag a) := by
    intro u a hc hu
    simp only [State.canTake, Bool.and_eq_true, decide_eq_true_eq] at hc
    have hroom : u.link.out.length < 24 := by
      rw [hu.out]
      exact Nat.lt_of_le_of_lt (Nat.le_add_right _ _) hc.2
    exact ((Moves.works hu).trans (.replied type tag a hroom)).trans (moves_settle _)
  rcases takeRequest_cases type tag pl fields owner s with
      ⟨_, h'⟩ | ⟨hc, _, h'⟩ | ⟨a, hc, _, _, _, h'⟩ | ⟨a, hc, _, _, h'⟩ <;>
    rw [h'] at ht <;> cases ht
  · exact .refl s
  · exact replied _ hc (.refl s)
  · exact replied _ hc (.refl s)
  · exact replied _ hc (h a)

/-! The period events and the examinations. -/

theorem movesTo_execMasterPeriodStart (s : State) : MovesTo s (execMasterPeriodStart s) :=
  movesTo_ite (movesTo_done ((moves_waitUntil s _).andWorks (works_masterWork _))) (movesTo_next s)

theorem movesTo_execChannelPeriodStart (c : Chan) (s : State) : MovesTo s (execChannelPeriodStart c s) := by
  unfold execChannelPeriodStart
  split
  · exact movesTo_done ((moves_waitUntil s _).trans (moves_periodWork _ c _ _))
  · exact movesTo_next s

theorem movesTo_execPeriodReport (c : Chan) (s : State) : MovesTo s (execPeriodReport c s) := by
  simp only [execPeriodReport]
  split
  · exact movesTo_ite (movesTo_done (moves_emitReport s c _)) (movesTo_next s)
  · exact movesTo_next s

/-! The events of a channel. -/

theorem movesTo_execHalfPeriodPoint (c : Chan) (s : State) : MovesTo s (execHalfPeriodPoint c s) := by
  unfold execHalfPeriodPoint
  split
  · exact movesTo_done ((moves_waitUntil s _).andWorks ((Works.modCh (.refl _) rfl).trans (works_applyCompare _ c _ _)))
  · exact movesTo_next s

theorem movesTo_execCommutationDue (c : Chan) (s : State) : MovesTo s (execCommutationDue c s) := by
  unfold execCommutationDue
  split
  · exact movesTo_ite (movesTo_next s) (movesTo_done ((moves_waitUntil s _).andWorks (works_modSq _ c _)))
  · exact movesTo_next s

theorem movesTo_execHandover (c : Chan) (tzc : Time) (s : State) : MovesTo s (execHandover c tzc s) :=
  movesTo_ite (movesTo_works (works_rampCrossing s c tzc false)) (movesTo_next s)

theorem movesTo_execGateEdge (c : Chan) (x : Phase) (s : State) : MovesTo s (execGateEdge c x s) := by
  simp only [execGateEdge]
  split
  · split
    · exact movesTo_next s
    · exact movesTo_done ((moves_waitUntil s _).andWorks (.same (books_modGates _ c _)))
  · exact movesTo_next s

theorem movesTo_execPendingTurnOn (c : Chan) (x : Phase) (side : Side) (s : State) : MovesTo s (execPendingTurnOn c x side s) := by
  unfold execPendingTurnOn
  split
  · exact movesTo_done ((moves_waitUntil s _).andWorks (.same (books_modGates _ c _)))
  · exact movesTo_next s

theorem movesTo_execFaultInputAssertion (c : Chan) (s : State) : MovesTo s (execFaultInputAssertion c s) := by
  have pinned := works_modProt s fun p => { p with pins := p.pins.set c true }
  exact movesTo_ite (movesTo_works ((pinned.trans (works_modProt _ _)).trans (works_faultAsserted _ c))) (movesTo_works pinned)

theorem movesTo_execFaultInputRelease (c : Chan) (s : State) : MovesTo s (execFaultInputRelease c s) := by
  have pinned := works_modProt s fun p => { p with pins := p.pins.set c false }
  exact movesTo_ite (movesTo_works (pinned.trans (works_modProt _ _))) (movesTo_works pinned)

/-! The converter's events. -/

theorem waitUntil_sched (s : State) (t : Time) :
    (s.waitUntil t).sched.timeline = s.sched.timeline ∧ (s.sched.conv = none → (s.waitUntil t).sched.conv = none) := by
  rcases s.waitUntil_cases t with ⟨_, h⟩ | ⟨_, h⟩ <;> rw [h]
  · exact ⟨rfl, id⟩
  · refine ⟨by rw [State.elapse_sched], fun hc => ?_⟩
    rw [State.elapse_conv, hc]
    rfl

/-- The arbiter's choice is an entry that waits, and the converter is idle (R108, R109). -/
theorem movesTo_execConversionStart (s : State) : MovesTo s (execConversionStart s) := by
  have waited : ∀ (b : Bool) (t : Time), s.sched.conv = none →
      let u := if b then s else s.waitUntil t
      Moves s u ∧ u.sched.conv = none := by
    intro b t hc
    cases b with
    | true => exact ⟨.refl s, hc⟩
    | false => exact ⟨moves_waitUntil s t, (waitUntil_sched s t).2 hc⟩
  simp only [execConversionStart]
  split
  next _ _ hc _ =>
    split
    next e he =>
      obtain ⟨hm, hidle⟩ := waited _ _ hc
      exact movesTo_done (hm.andWorks (.started hidle (List.mem_of_mem_filter (arbiter_mem he))))
    next => exact movesTo_next s
  next => exact movesTo_next s

theorem movesTo_execConversionComplete (raw : BitVec 12) (s : State) : MovesTo s (execConversionComplete raw s) := by
  unfold execConversionComplete
  split
  next v hv =>
    refine movesTo_done ((moves_elapse s v.left).andWorks (works_completeConversion _ ?_))
    rw [State.elapse_conv, hv]
    rfl
  next => exact movesTo_next s

theorem movesTo_execLate (slot : Nat) (s : State) : MovesTo s (execLate slot s) := by
  unfold execLate
  split
  next e he =>
    split
    next c t ho _ =>
      refine movesTo_done ((moves_waitUntil s t).andWorks (.expired ?_ ho))
      rw [(waitUntil_sched s t).1]
      exact List.mem_of_find?_eq_some he
    next => exact movesTo_next s
  next => exact movesTo_next s

/-! The events of the device and the link. -/

theorem moves_quietEntered (s : State) : Moves s s.quietEntryNow.enterGap :=
  (Moves.works (works_quietEntryNow s)).trans (moves_enterGap _)

theorem moves_linkChanged (s : State) (r : Rate) (gap : Nat) : Moves s (s.linkInForce r gap).enterGap :=
  (Moves.works (works_linkInForce s r gap)).trans (moves_enterGap _)

theorem books_messageReset (s : State) : books s.messageResetNow = books State.reset := books_of_reset rfl rfl rfl rfl rfl

theorem movesTo_execMessageReset (s : State) : MovesTo s (execMessageReset s) := by
  unfold execMessageReset
  split
  · exact movesTo_reset (books_messageReset _)
  · exact movesTo_next s

theorem movesTo_execFrameSent (s : State) : MovesTo s (execFrameSent s) := by
  unfold execFrameSent
  split
  next e left _ =>
    have elapsed := moves_elapse s left
    cases e with
    | nothing => exact movesTo_done (elapsed.trans (moves_enterGap _))
    | messageReset => exact movesTo_reset (books_messageReset _)
    | quietEntry => exact movesTo_done (elapsed.trans (moves_quietEntered _))
    | setLink r gap => exact movesTo_done (elapsed.trans (moves_linkChanged _ r gap))
  next => exact movesTo_next s

theorem movesTo_execSetLinkInForce (s : State) : MovesTo s (execSetLinkInForce s) := by
  unfold execSetLinkInForce
  split
  · exact movesTo_done ((moves_elapse s _).trans (moves_linkChanged _ _ _))
  · exact movesTo_next s

theorem movesTo_execQuietEntry (s : State) : MovesTo s (execQuietEntry s) := by
  unfold execQuietEntry
  split
  · exact movesTo_done ((moves_elapse s _).trans (moves_quietEntered _))
  · exact movesTo_next s

theorem movesTo_execGapEnd (s : State) : MovesTo s (execGapEnd s) := by
  unfold execGapEnd
  split
  · exact movesTo_done ((moves_elapse s _).trans (moves_ready _))
  · exact movesTo_next s

theorem movesTo_execStartUpEnd (s : State) : MovesTo s (execStartUpEnd s) := by
  unfold execStartUpEnd
  split
  · exact movesTo_done ((moves_elapse s _).andWorks (works_endStartUp _))
  · exact movesTo_next s

theorem movesTo_execWakeComplete (s : State) : MovesTo s (execWakeComplete s) := by
  unfold execWakeComplete
  split
  · exact movesTo_done ((moves_elapse s _).trans (moves_wakeNow _))
  · exact movesTo_next s

theorem movesTo_execResetRelease (s : State) : MovesTo s (execResetRelease s) :=
  movesTo_ite (movesTo_works (.same rfl)) (movesTo_next s)

theorem movesTo_execSlowStep (s : State) : MovesTo s (execSlowStep s) :=
  movesTo_ite (movesTo_works (works_slowStep s)) (movesTo_next s)

theorem movesTo_execWindowExpiry (s : State) : MovesTo s (execWindowExpiry s) :=
  movesTo_ite (movesTo_works (works_expiryStep s)) (movesTo_next s)

theorem movesTo_execCharacterArrival (char : Byte) (fe : Bool) (s : State) : MovesTo s (execCharacterArrival char fe s) := by
  unfold execCharacterArrival
  split_ifs
  · exact movesTo_next s
  · exact movesTo_works ((Works.recorded s _ _ _).trans (works_receive _ _ _))
  · exact movesTo_works ((works_wakeBegins s char).trans (works_receive _ _ _))
  · exact movesTo_next s

theorem movesTo_execFrameTimeout (s : State) : MovesTo s (execFrameTimeout s) :=
  movesTo_ite (movesTo_done ((moves_elapse s _).andWorks ((Works.recorded _ _ _ _).trans (works_receive _ _ _)))) (movesTo_next s)

theorem movesTo_execUnknownType (type tag : Byte) (p : List Byte) (s : State) : MovesTo s (execUnknownType type tag p s) := by
  unfold execUnknownType
  split
  next => exact movesTo_next s
  next h =>
    simp only [State.canTake, Bool.or_eq_true, Bool.not_eq_true', not_or, Bool.not_eq_false, Bool.and_eq_true,
      decide_eq_true_eq] at h
    exact movesTo_done (.replied type tag _ (Nat.lt_of_le_of_lt (Nat.le_add_right _ _) h.2.2))

/-- Every command stays within the moves. -/
theorem exec_moves (i : Instr) (s : State) : MovesTo s (exec i s) := by
  cases i with
  | ident tag p => exact movesTo_takeRequest (owner := ownIdent) fun _ => .refl s
  | setLink tag p => exact movesTo_takeRequest (works_ownSetLink · s)
  | setLinkInForce => exact movesTo_execSetLinkInForce s
  | reset tag p => exact movesTo_takeRequest (owner := ownReset) fun _ => .same rfl
  | messageReset => exact movesTo_execMessageReset s
  | sleep tag p => exact movesTo_takeRequest fun _ => works_ownSleep s
  | quietEntry => exact movesTo_execQuietEntry s
  | deviceStatus tag p => exact movesTo_takeRequest (works_ownStatus · s)
  | channelStatus tag p => exact movesTo_takeRequest (works_ownStatus · s)
  | recover tag p => exact movesTo_takeRequest fun _ => works_ownRecover s
  | supervise tag p => exact movesTo_takeRequest (works_ownSupervise · s)
  | heartbeat tag p => exact movesTo_takeRequest (works_ownHeartbeat · s)
  | carrier tag p => exact movesTo_takeRequest (works_ownCarrier · s)
  | converter tag p => exact movesTo_takeRequest (works_ownConverter · s)
  | auxPlan tag p => exact movesTo_takeRequest (works_ownAuxPlan · s)
  | limits tag p => exact movesTo_takeRequest (works_ownLimits · s)
  | channelSetup tag p => exact movesTo_takeRequest (works_ownSetup · s)
  | activate tag p => exact movesTo_takeRequest (works_ownActivate · s)
  | profile tag p => exact movesTo_takeRequest (works_ownProfile · s)
  | calibrate tag p => exact movesTo_takeRequest (works_ownCalibrate · s)
  | start tag p => exact movesTo_takeRequest (works_ownStart · s)
  | stopCoast tag p => exact movesTo_takeRequest (works_ownStop · s)
  | stopBrake tag p => exact movesTo_takeRequest (works_ownStop · s)
  | vectorSet tag p => exact movesTo_takeRequest (works_ownVectorSet · s)
  | stepSet tag p => exact movesTo_takeRequest (works_ownStepSet · s)
  | clearTrip tag p => exact movesTo_takeRequest (works_ownClearTrip · s)
  | unknownType type tag p => exact movesTo_execUnknownType type tag p s
  | powerOnReset v => exact movesTo_reset (books_of_reset rfl rfl rfl rfl rfl)
  | pinReset => exact movesTo_reset (books_of_reset rfl rfl rfl rfl rfl)
  | startUpEnd => exact movesTo_execStartUpEnd s
  | masterPeriodStart => exact movesTo_execMasterPeriodStart s
  | busStale => exact movesTo_works (works_busStaleStep s)
  | channelPeriodStart c => exact movesTo_execChannelPeriodStart c s
  | stale c => exact movesTo_works (works_staleWarn s c)
  | staleTrip c => exact movesTo_works (works_staleTripStep s c)
  | calTimeout c => exact movesTo_works (works_calTimeoutStep s c)
  | halfPeriodPoint c => exact movesTo_execHalfPeriodPoint c s
  | lostSync c => exact movesTo_works (works_lostSyncStep s c)
  | commutationDue c => exact movesTo_execCommutationDue c s
  | gateEdge c x => exact movesTo_execGateEdge c x s
  | pendingTurnOn c x side => exact movesTo_execPendingTurnOn c x side s
  | conversionStart => exact movesTo_execConversionStart s
  | conversionComplete raw => exact movesTo_execConversionComplete raw s
  | calDone c => exact movesTo_works (works_calDoneStep s c)
  | handover c tzc => exact movesTo_execHandover c tzc s
  | late slot => exact movesTo_execLate slot s
  | currentLimit c => exact movesTo_works (works_limitStep s c _)
  | periodReport c => exact movesTo_execPeriodReport c s
  | faultInputAssertion c => exact movesTo_execFaultInputAssertion c s
  | faultInputRelease c => exact movesTo_execFaultInputRelease c s
  | slowStep => exact movesTo_execSlowStep s
  | windowExpiry => exact movesTo_execWindowExpiry s
  | characterArrival char fe => exact movesTo_execCharacterArrival char fe s
  | wakeComplete => exact movesTo_execWakeComplete s
  | frameTimeout => exact movesTo_execFrameTimeout s
  | frameSent => exact movesTo_execFrameSent s
  | gapEnd => exact movesTo_execGapEnd s
  | resetRelease => exact movesTo_execResetRelease s

theorem moves_idle (s : State) : Moves s s.idle := by
  have raised : ∀ i b, Moves s (s.raise i b) := fun i b => (moves_ite (.taken s) (.refl s)).andWorks (.same rfl)
  simp only [State.idle]
  split
  · exact raised _ _
  · split
    · exact raised _ _
    · exact moves_elapse s 1

/-- All that a step can do to the books: it is a command, or the idle step. -/
theorem step_moves {s t : State} (h : step s = .next t) : Moves s t := by
  unfold step at h
  split at h
  next i rest _ => exact Moves.trans (t := { s with pending := rest }) (.works (.same rfl)) (exec_moves i _ t h)
  next =>
    cases h
    exact moves_idle s

/-- Settles O5: each move of a step keeps the identity. -/
theorem sampleCountersStayInBalance : Obligations.SampleCountersStayInBalance := fun _ _ hs h => (step_moves h).countersAgree hs

/-- Settles O6: each move of a step keeps the bounds. -/
theorem queuesKeepTheirBounds : Obligations.QueuesKeepTheirBounds := by
  intro s t ⟨hqueues, htl⟩ h
  have ht := (step_moves h).bounded ⟨(queuesBounded_iff s).1 hqueues, htl⟩
  exact ⟨(queuesBounded_iff t).2 ht.queues, ht.timeline⟩


/-! ### The arbiter (R108) -/

/-- The place of an entry in the arbiter's order, its due instant counted from a base: the less, the sooner it is chosen. -/
def rank (base : Time) (e : Entry) : ℕᵒᵈ ×ₗ ℕ ×ₗ ℕ :=
  toLex (OrderDual.toDual e.level, toLex ((e.due - base).toNat, e.slot))

/-- Within 2^31 ticks of a base the signed difference orders instants as their distances from it do. -/
theorem later_iff_of_window {base a b : Time} (ha : (a - base).toNat < 2147483648) (hb : (b - base).toNat < 2147483648) :
    later a b = true ↔ (b - base).toNat < (a - base).toNat := by
  have hdiff : a - b = (a - base) - (b - base) := by ring
  rw [later, decide_eq_true_iff, hdiff]
  generalize a - base = x at ha
  generalize b - base = y at hb
  rw [BitVec.toInt_sub, BitVec.toInt_eq_toNat_of_lt (by omega), BitVec.toInt_eq_toNat_of_lt (by omega), Int.bmod_def]
  omega

theorem beats_iff_rank_lt {base : Time} {a b : Entry} (ha : (a.due - base).toNat < 2147483648)
    (hb : (b.due - base).toNat < 2147483648) : a.beats b = true ↔ rank base a < rank base b := by
  have hdue : (a.due - base).toNat = (b.due - base).toNat ↔ a.due = b.due := by
    rw [← BitVec.toNat_eq, sub_left_inj]
  simp only [rank, Prod.Lex.toLex_lt_toLex, OrderDual.toDual_lt_toDual, OrderDual.toDual_inj, hdue, Entry.beats, Bool.or_eq_true,
    Bool.and_eq_true, decide_eq_true_iff, beq_iff_eq, later_iff_of_window hb ha]

/-- The arbiter's choice stands first in its order. -/
theorem arbiter_rank_le {base : Time} {es : List Entry} {e : Entry} (hwin : ∀ x ∈ es, (x.due - base).toNat < 2147483648)
    (h : arbiter es = some e) : ∀ x ∈ es, rank base e ≤ rank base x := by
  induction es generalizing e with
  | nil => cases h
  | cons y ys ih =>
    obtain ⟨hy, hys⟩ := List.forall_mem_cons.1 hwin
    rw [List.forall_mem_cons]
    rw [arbiter] at h
    cases hb : arbiter ys with
    | none =>
      have hnil : ys = [] := by
        by_contra hne
        simpa [hb] using arbiter_isSome hne
      obtain rfl : y = e := by simpa [hb] using h
      simp [hnil]
    | some b =>
      have hbeats := beats_iff_rank_lt (hys b (arbiter_mem hb)) hy
      simp only [hb] at h
      split at h <;> cases h
      next hlt => exact ⟨(hbeats.1 hlt).le, ih hys hb⟩
      next hge =>
        have hle : rank base y ≤ rank base b := not_lt.1 (mt hbeats.2 hge)
        exact ⟨le_rfl, fun x hx => hle.trans (ih hys hb x hx)⟩

/-- Settles O20: the choice is the least of the candidates in the lexicographic order of level, due instant and slot. -/
theorem arbiterChoosesTheHighestThenEarliestThenLowest : Obligations.ArbiterChoosesTheHighestThenEarliestThenLowest := by
  intro base es hwin hne
  obtain ⟨e, he⟩ := Option.isSome_iff_exists.1 (arbiter_isSome hne)
  refine ⟨e, he, arbiter_mem he, fun x hx => ?_⟩
  have hle := arbiter_rank_le hwin he x hx
  simp only [rank, Prod.Lex.toLex_le_toLex, OrderDual.toDual_lt_toDual, OrderDual.toDual_inj] at hle
  refine ⟨by omega, fun hl => by omega, fun hl hd => ?_⟩
  rw [hd] at hle
  omega

/-! ### CONVERTER, LIMITS and AUX_PLAN (R103, R118, R148) -/

theorem converter_owner (tag a b c : Byte) {s : State} (hs : s.takes) :
    exec (.converter tag [a, b, c]) s =
      .next ((ownConverter ⟨a.toNat, b.toNat, c.toNat⟩ s).1.replied 0x11 tag (ownConverter ⟨a.toNat, b.toNat, c.toNat⟩ s).2) :=
  takeRequest_taken 0x11 tag false _ ownConverter s hs

theorem limits_owner (tag : Byte) {p : List Byte} {f : LimitFields} {s : State} (hs : s.takes) (hp : readLimits p = some f) :
    exec (.limits tag p) s = .next ((ownLimits f s).1.replied 0x13 tag (ownLimits f s).2) := by
  rw [← takeRequest_taken _ _ false _ _ _ hs, ← hp]
  rfl

theorem auxPlan_owner (tag : Byte) {p : List Byte} {f : Nat × List AuxFields} {s : State} (hs : s.takes)
    (hp : readAuxPlan p = some f) :
    exec (.auxPlan tag p) s = .next ((ownAuxPlan f s).1.replied 0x12 tag (ownAuxPlan f s).2) := by
  rw [← takeRequest_taken _ _ false _ _ _ hs, ← hp]
  rfl

/-- Settles O31: the owners' checks stand in the statement's order. -/
theorem converterAndLimitsReplaceTheirValues : Obligations.ConverterAndLimitsReplaceTheirValues := by
  constructor
  · intro tag a b c s hs
    rw [converter_owner tag a b c hs, ownConverter]
    split_ifs <;> rfl
  · intro tag a0 a1 b0 b1 c0 c1 d0 d1 s hs a b c d
    rw [limits_owner tag (f := ⟨a, b, c, d⟩) hs rfl, ownLimits]
    split_ifs <;> rfl

/-- An entry of AUX_PLAN whose fields pass R118's checks under a half-period h. -/
def GoodAux (h : Nat) (a : AuxFields) : Prop := a.source ≤ 3 ∧ a.instant < 2 * h ∧ a.divider ≤ 64

theorem auxSourceOf_isNone_iff (n : Nat) : (auxSourceOf n).isNone = true ↔ 3 < n := by
  match n with
  | 0 | 1 | 2 | 3 => decide
  | n + 4 => exact ⟨fun _ => by omega, fun _ => rfl⟩

theorem auxSourceOf_code {n : Nat} (h : n ≤ 3) : ((auxSourceOf n).getD .bus).code = n := by
  interval_cases n <;> rfl

section

variable {h : Nat} {a : AuxFields}

theorem auxFailing_of_source (i : Nat) (as : List AuxFields) (hs : 3 < a.source) : auxFailing h i (a :: as) = some (2 + 3 * i) := by
  rw [auxFailing, if_pos ((auxSourceOf_isNone_iff _).2 hs)]

/-- With its source known an entry goes by its instant, then by its divider. -/
theorem auxFailing_of_known (i : Nat) (as : List AuxFields) (hs : a.source ≤ 3) :
    auxFailing h i (a :: as) =
      if 2 * h ≤ a.instant then some (3 + 3 * i) else if 64 < a.divider then some (4 + 3 * i) else auxFailing h (i + 1) as := by
  rw [auxFailing, if_neg (mt (auxSourceOf_isNone_iff _).1 (by omega))]

theorem auxFailing_of_good (i : Nat) (as : List AuxFields) (good : GoodAux h a) :
    auxFailing h i (a :: as) = auxFailing h (i + 1) as := by
  obtain ⟨hs, hi, hd⟩ := good
  rw [auxFailing_of_known i as hs, if_neg (by omega), if_neg (by omega)]

/-- Good entries are passed over (R118). -/
theorem auxFailing_drop {l : List AuxFields} {i : Nat} (j : Nat) (hl : i ≤ l.length)
    (good : ∀ k x, k < i → l[k]? = some x → GoodAux h x) : auxFailing h j l = auxFailing h (j + i) (l.drop i) := by
  induction i generalizing j l with
  | zero => rfl
  | succ i ih =>
    cases l with
    | nil => cases hl
    | cons x xs =>
      rw [auxFailing_of_good j xs (good 0 x i.succ_pos rfl), List.drop_succ_cons, Nat.add_comm i 1, ← Nat.add_assoc]
      exact ih (j + 1) (Nat.le_of_succ_le_succ hl) fun k y hk => good (k + 1) y (Nat.succ_lt_succ hk)

/-- Where the entries before one are good, that entry and the ones after it decide (R118). -/
theorem auxFailing_at {l : List AuxFields} {i : Nat} (hi : l[i]? = some a)
    (good : ∀ k x, k < i → l[k]? = some x → GoodAux h x) : auxFailing h 0 l = auxFailing h i (a :: l.drop (i + 1)) := by
  obtain ⟨hlt, rfl⟩ := List.getElem?_eq_some_iff.1 hi
  rw [auxFailing_drop 0 hlt.le good, Nat.zero_add, List.drop_eq_getElem_cons hlt]

theorem auxFailing_of_all_good {l : List AuxFields} (good : ∀ x ∈ l, GoodAux h x) : auxFailing h 0 l = none := by
  rw [auxFailing_drop 0 le_rfl fun k x _ hx => good x (List.mem_of_getElem? hx), List.drop_length]
  rfl

end

/-- The entry that AUX_PLAN writes for the fields of one. -/
def auxEntryOf (a : AuxFields) : AuxEntry :=
  { source := (auxSourceOf a.source).getD .bus, instant := a.instant, divider := a.divider, wait := 0 }

@[simp] theorem length_writeAux (plan : List AuxEntry) (i : Nat) (l : List AuxFields) : (writeAux plan i l).length = plan.length := by
  induction l generalizing plan i with
  | nil => rfl
  | cons a as ih => rw [writeAux, ih, List.length_set]

/-- The writing of entries by place: those of the list from i on, the plan's elsewhere (R118). -/
theorem getElem?_writeAux {plan : List AuxEntry} {i : Nat} {l : List AuxFields} (hfit : i + l.length ≤ plan.length) (j : Nat) :
    (writeAux plan i l)[j]? = if i ≤ j ∧ j < i + l.length then (l[j - i]?).map auxEntryOf else plan[j]? := by
  induction l generalizing plan i with
  | nil => rw [writeAux, if_neg (by simp only [List.length_nil]; omega)]
  | cons a as ih =>
    rw [List.length_cons] at hfit ⊢
    rw [writeAux, ih (by rw [List.length_set]; omega)]
    rcases Nat.lt_trichotomy j i with hlt | rfl | hgt
    · rw [if_neg (by omega), if_neg (by omega), List.getElem?_set_ne (by omega)]
    · rw [if_neg (by omega), if_pos (by omega), List.getElem?_set_self (by omega), Nat.sub_self]
      rfl
    · rw [List.getElem?_set_ne (by omega), show j - i = j - (i + 1) + 1 by omega, List.getElem?_cons_succ]
      simp only [show (i + 1 ≤ j ∧ j < i + 1 + as.length) ↔ (i ≤ j ∧ j < i + (as.length + 1)) by omega]

section

variable {s : State} {st : Nat} {l : List AuxFields}

theorem ownAuxPlan_range (h : 3 < st ∨ 4 < st + l.length) : ownAuxPlan (st, l) s = (s, badValue 1) := if_pos h

/-- A run that fits the four places goes by its first failing field. -/
theorem ownAuxPlan_refused {n : Nat} (hst : st ≤ 3) (hfit : st + l.length ≤ 4) (h : auxFailing s.tb.h 0 l = some n) :
    ownAuxPlan (st, l) s = (s, badValue n) := by
  simp only [ownAuxPlan, if_neg (show ¬(3 < st ∨ 4 < st + l.length) by omega), h]

theorem ownAuxPlan_accepted (hst : st ≤ 3) (hfit : st + l.length ≤ 4) (h : auxFailing s.tb.h 0 l = none) :
    ownAuxPlan (st, l) s = (s.modSched (fun q => { q with aux := writeAux q.aux st l }), ok) := by
  simp only [ownAuxPlan, if_neg (show ¬(3 < st ∨ 4 < st + l.length) by omega), h]

end

/-- Settles O32: good entries are passed over up to the failing one, and the places written are those of the run. -/
theorem auxPlanWritesItsEntries : Obligations.AuxPlanWritesItsEntries := by
  intro tag p st l s hs hlen hp
  have answered := auxPlan_owner tag hs hp
  refine ⟨fun hr => ?_, fun hst hfit i a hi hgood => ?_, fun hst hfit hall => ?_⟩
  · rw [answered, ownAuxPlan_range hr]
    rfl
  · have refused : ∀ n, auxFailing s.tb.h i (a :: l.drop (i + 1)) = some n →
        exec (.auxPlan tag p) s = .next (s.replied 0x12 tag { code := .badValue, extra := [byte n] }) := by
      intro n hn
      rw [answered, ownAuxPlan_refused hst hfit ((auxFailing_at hi hgood).trans hn)]
      rfl
    refine ⟨fun hsrc => refused _ (auxFailing_of_source i _ hsrc), fun hsrc hins => refused _ ?_,
      fun hsrc hins hdiv => refused _ ?_⟩
    · rw [auxFailing_of_known i _ hsrc, if_pos hins]
    · rw [auxFailing_of_known i _ hsrc, if_neg (by omega), if_pos hdiv]
  · have written := getElem?_writeAux (plan := s.sched.aux) (i := st) (l := l) (by omega)
    refine ⟨writeAux s.sched.aux st l, ?_, by rw [length_writeAux, hlen], fun i a hi => ?_, fun j hj => ?_⟩
    · rw [answered, ownAuxPlan_accepted hst hfit (auxFailing_of_all_good hall)]
      rfl
    · have hlt := (List.getElem?_eq_some_iff.1 hi).1
      refine ⟨auxEntryOf a, ?_, auxSourceOf_code (hall a (List.mem_of_getElem? hi)).1, rfl, rfl, rfl⟩
      rw [written, if_pos (by omega), Nat.add_sub_cancel_left, hi]
      rfl
    · rw [written, if_neg (by omega)]

/-! ### What handing out a result leaves alone (R110, R111) -/

/-- What a completion counts for a channel: its converted samples (R121) and its calibration results (R37). -/
def counts (k : Channel) : BitVec 32 × Nat × Nat := (k.converted, k.calSum, k.calResults)

/-- The converter, the monitor and the counts of completions stay. -/
structure CountsKept (s t : State) : Prop where
  conv : t.sched.conv = s.sched.conv
  prot : t.prot = s.prot
  counts : ∀ c, counts (t.chan c) = counts (s.chan c)

theorem CountsKept.refl (s : State) : CountsKept s s := ⟨rfl, rfl, fun _ => rfl⟩

theorem CountsKept.trans {s t u : State} (h : CountsKept s t) (h' : CountsKept t u) : CountsKept s u :=
  ⟨h'.conv.trans h.conv, h'.prot.trans h.prot, fun c => (h'.counts c).trans (h.counts c)⟩

theorem CountsKept.modCh {s t : State} (h : CountsKept s t) {c : Chan} {f : Channel → Channel}
    (hf : Scheduling.counts (f (t.chan c)) = Scheduling.counts (t.chan c)) : CountsKept s (t.modCh c f) := by
  refine ⟨h.conv, h.prot, fun x => ?_⟩
  rw [State.chan_modCh]
  split_ifs with hx
  · rw [hx, hf, h.counts]
  · exact h.counts x

theorem CountsKept.queueEvent {s t : State} (h : CountsKept s t) (code : EventCode) (c : Option Chan) (detail : Nat) :
    CountsKept s (t.queueEvent code c detail) :=
  ⟨by rw [State.queueEvent_sched, h.conv], by rw [State.queueEvent_prot, h.prot], fun x => by rw [State.chan_queueEvent, h.counts]⟩

theorem countsKept_ite {p : Prop} [Decidable p] {s t u : State} (ht : CountsKept s t) (hu : CountsKept s u) :
    CountsKept s (if p then t else u) := by
  split_ifs
  · exact ht
  · exact hu

theorem countsKept_endRun (s : State) (c : Chan) : CountsKept s (s.endRun c) := by
  have flushed : CountsKept s (s.flushChan c) := by
    unfold State.flushChan
    refine CountsKept.modCh ?_ rfl
    exact ⟨rfl, rfl, fun _ => rfl⟩
  exact flushed.modCh rfl

theorem countsKept_toStopped (s : State) (c : Chan) : CountsKept s (s.toStopped c) := ((countsKept_endRun s c).modCh rfl).modCh rfl

theorem countsKept_calFailed (s : State) (c : Chan) (f : CalFailure) : CountsKept s (s.calFailed c f) :=
  (countsKept_toStopped s c).queueEvent _ _ _

theorem countsKept_reachCause (s : State) (c : Chan) (k : TripCause) : CountsKept s (s.reachCause c k) := by
  rcases s.reachCause_cases c k with ⟨_, h⟩ | ⟨_, h⟩ | ⟨_, _, h⟩ | ⟨_, _, _, h⟩ <;> rw [h]
  · exact (((countsKept_endRun s c).modCh rfl).modCh rfl).queueEvent _ _ _
  · exact ((CountsKept.refl s).modCh rfl).queueEvent _ _ _
  · exact (countsKept_calFailed s c _).queueEvent _ _ _
  · exact (CountsKept.refl s).queueEvent _ _ _

/-- A channel's turn as a cause is sent (R140). -/
def causeTurn (k : TripCause) (who : ChanState → Bool) (s : State) (c : Chan) : State :=
  if who (s.chan c).state then s.reachCause c k else s

theorem sendCause_eq_turns (s : State) (k : TripCause) (who : ChanState → Bool) :
    s.sendCause k who = causeTurn k who (causeTurn k who (causeTurn k who s .m1) .m2) .m3 := rfl

theorem countsKept_causeTurn (k : TripCause) (who : ChanState → Bool) (s : State) (c : Chan) : CountsKept s (causeTurn k who s c) :=
  countsKept_ite (countsKept_reachCause s c k) (.refl s)

theorem countsKept_sendCause (s : State) (k : TripCause) (who : ChanState → Bool) : CountsKept s (s.sendCause k who) := by
  rw [sendCause_eq_turns]
  exact ((countsKept_causeTurn k who s _).trans (countsKept_causeTurn k who _ _)).trans (countsKept_causeTurn k who _ _)

theorem countsKept_calDoneStep (s : State) (c : Chan) : CountsKept s (s.calDoneStep c) :=
  countsKept_ite (countsKept_ite (((countsKept_toStopped s c).modCh rfl).queueEvent _ _ _) (countsKept_calFailed s c _)) (.refl s)

theorem countsKept_modSq (s : State) (c : Chan) (f : StepSeq → StepSeq) : CountsKept s (s.modSq c f) := (CountsKept.refl s).modCh rfl

theorem countsKept_classify (s : State) (c : Chan) (start : Time) (d : Int) : CountsKept s (s.classify c start d) := by
  have ramp : ∀ tzc early, CountsKept s (s.rampCrossing c tzc early) := by
    intro tzc early
    rcases rampCrossing_cases s c tzc early with ⟨n, h⟩ | ⟨p, t60, h⟩ <;> rw [h]
    · exact countsKept_modSq s c _
    · exact ((CountsKept.refl s).modCh rfl).queueEvent _ _ _
  have closed : ∀ tzc, CountsKept s (s.closedCrossing c tzc) := fun tzc => by
    rw [closedCrossing_eq]
    exact countsKept_modSq s c _
  exact countsKept_ite (countsKept_ite (ramp _ _) (closed _)) (countsKept_modSq s c _)

theorem countsKept_senseResult (s : State) (c : Chan) (seq : Seq) (raw : Nat) (start : Time) (input floatInput : Nat) :
    CountsKept s (s.senseResult c seq raw start input floatInput) := by
  simp only [State.senseResult]
  refine countsKept_ite ?_ (.refl s)
  split
  · exact .refl s
  · exact countsKept_ite (countsKept_modSq s c _) (countsKept_classify s c _ _)

/-! ### A completion by its owner (R110, R111) -/

theorem completeConversion_of_chan {s : State} {v : Conversion} {c : Chan} (ho : v.entry.owner = .chan c) (raw : Nat) :
    s.completeConversion v raw = (conversionCounted s v).channelResult c v raw := by
  simp only [State.completeConversion, conversionCounted, ho]

theorem completeConversion_of_aux {s : State} {v : Conversion} {i : Nat} {a : AuxSource} (ho : v.entry.owner = .aux i)
    (hp : v.entry.purpose = .aux a) (raw : Nat) :
    s.completeConversion v raw = (conversionCounted s v).auxResult a raw (v.entry.merged.getD 0) := by
  simp only [State.completeConversion, conversionCounted, ho, hp]

/-- The counted conversion has left the converter, and of the channels it changes the owner's converted count alone. -/
theorem conversionCounted_blocks (s : State) (v : Conversion) :
    (conversionCounted s v).sched.conv = none ∧ (conversionCounted s v).prot = s.prot ∧ (conversionCounted s v).tb = s.tb ∧
      (conversionCounted s v).power = s.power ∧ (conversionCounted s v).link = s.link := by
  unfold conversionCounted
  cases v.entry.owner <;> exact ⟨rfl, rfl, rfl, rfl, rfl⟩

theorem chan_conversionCounted (s : State) (v : Conversion) (x : Chan) :
    (conversionCounted s v).chan x =
      { s.chan x with converted := (s.chan x).converted + (if v.entry.owner = .chan x then 1 else 0) } := by
  unfold conversionCounted
  cases ho : v.entry.owner with
  | chan c =>
    simp only [State.chan_modCh, State.chan_modSched, Owner.chan.injEq, eq_comm (a := c)]
    split_ifs with h
    · rw [h]
    · rw [add_zero]
  | aux i =>
    simp only [reduceCtorEq, if_false, add_zero]
    rfl

theorem conversionCounted_aux_ch {s : State} {v : Conversion} {i : Nat} (ho : v.entry.owner = .aux i) :
    (conversionCounted s v).ch = s.ch := by
  simp only [conversionCounted, ho]
  rfl

/-! A channel's result. -/

/-- The converter and the converted counts stay. -/
def ConvertedKept (s t : State) : Prop := t.sched.conv = s.sched.conv ∧ ∀ c, (t.chan c).converted = (s.chan c).converted

theorem CountsKept.converted {s t : State} (h : CountsKept s t) : ConvertedKept s t :=
  ⟨h.conv, fun c => congrArg Prod.fst (h.counts c)⟩

theorem ConvertedKept.trans {s t u : State} (h : ConvertedKept s t) (h' : ConvertedKept t u) : ConvertedKept s u :=
  ⟨h'.1.trans h.1, fun c => (h'.2 c).trans (h.2 c)⟩

theorem convertedKept_modCh (s : State) {c : Chan} {f : Channel → Channel} (hf : (f (s.chan c)).converted = (s.chan c).converted) :
    ConvertedKept s (s.modCh c f) := by
  refine ⟨rfl, fun x => ?_⟩
  rw [State.chan_modCh]
  split_ifs with hx
  · rw [hx, hf]
  · rfl

/-- A CAL result that the running calibration takes is added to its sum and counted (R37). -/
theorem calResult_counted {s : State} {c : Chan} {seq : Seq} (raw : Nat) (hst : (s.chan c).state = .calibrating)
    (hplan : ∃ p, (s.chan c).curPlan = some p ∧ p.seq = seq) :
    s.calResult c seq raw =
      (s.modCh c fun k => { k with calSum := k.calSum + raw, calResults := k.calResults + 1 }).calDoneStep c := by
  have holds : (s.chan c).holdsPlan seq = true := (holdsPlan_iff _ _).2 hplan
  simp only [State.calResult, hst, holds]
  rfl

theorem calResult_dropped {s : State} {c : Chan} (seq : Seq) (raw : Nat) (hst : (s.chan c).state ≠ .calibrating) :
    s.calResult c seq raw = s := by
  simp only [State.calResult, beq_eq_false_iff_ne.2 hst, Bool.false_and, Bool.false_eq_true, if_false]

theorem convertedKept_channelResult (s : State) (c : Chan) (v : Conversion) (raw : Nat) :
    ConvertedKept s (s.channelResult c v raw) := by
  have cal : ConvertedKept s (s.calResult c v.entry.seq raw) := by
    unfold State.calResult
    simp only
    split
    · exact (convertedKept_modCh s (by rfl)).trans (countsKept_calDoneStep _ c).converted
    · exact (CountsKept.refl s).converted
  simp only [State.channelResult]
  split
  · exact cal
  · exact (convertedKept_modCh s (by rfl)).trans (countsKept_senseResult _ c _ _ _ _ _).converted
  · exact convertedKept_modCh s (by rfl)

section

variable {s : State} {v : Conversion} {c : Chan}

theorem channelResult_of_cal (hp : v.entry.purpose = .cal) (raw : Nat) :
    s.channelResult c v raw = s.calResult c v.entry.seq raw := by
  simp only [State.channelResult, hp]

theorem channelResult_of_shunt (hp : v.entry.purpose = .shuntA ∨ v.entry.purpose = .shuntB) (raw : Nat) :
    s.channelResult c v raw = s.shuntResult c v raw (ticksSince v.start v.entry.due) := by
  rcases hp with hp | hp <;> simp only [State.channelResult, hp]

end

/-- What a shunt result makes of the working record of its plan (R125, R129). -/
def shuntKept (k : Channel) (v : Conversion) (raw : Nat) (w : WorkRecord) : WorkRecord :=
  let placed := w.setPlace v.entry.purpose (.converted raw v.start (ticksSince v.start v.entry.due))
  match w.plan.body with
  | .step _ => { placed with sampled := some (k.sq.sampledRoles v.commutated k.planIndex) }
  | _ => placed

theorem shuntResult_eq (s : State) (c : Chan) (v : Conversion) (raw : Nat) :
    s.shuntResult c v raw (ticksSince v.start v.entry.due) = s.modRb c (·.record v.entry.seq (shuntKept (s.chan c) v raw)) := rfl

theorem setPlace_shunt {p : Purpose} (hp : p = .shuntA ∨ p = .shuntB) (w : WorkRecord) (x : Place) :
    w.setPlace p x = if p = .shuntA then { w with placeA := x } else { w with placeB := x } := by
  rcases hp with rfl | rfl <;> rfl

theorem shuntKept_vector {w : WorkRecord} {p : VectorPlan} (k : Channel) (v : Conversion) (raw : Nat)
    (hb : w.plan.body = .vector p) :
    shuntKept k v raw w = w.setPlace v.entry.purpose (.converted raw v.start (ticksSince v.start v.entry.due)) := by
  simp only [shuntKept, hb]

theorem shuntKept_step {w : WorkRecord} {p b : StepPlan} {k : Channel} {q : Plan} (v : Conversion) (raw : Nat)
    (hb : w.plan.body = .step p) (hq : k.curPlan = some q) (hqb : q.body = .step b) :
    shuntKept k v raw w =
      { w.setPlace v.entry.purpose (.converted raw v.start (ticksSince v.start v.entry.due)) with
        sampled := some (k.sq.sampledRoles v.commutated b.index) } := by
  have hindex : k.planIndex = b.index := by simp only [Channel.planIndex, hq, hqb]
  simp only [shuntKept, hb, hindex]

/-! An aux result (R144 to R146). -/

section

variable (s : State) (raw merged : Nat)

/-- The state once the monitor has noted a BUS result and its condition, before it sends a cause. -/
def busNoted : State :=
  s.modProt fun p =>
    { p with
      bus := some { raw := raw, merged := merged, age := 0 }, busCond := p.busCondOf raw, staleCount := 0, staleGiven := false }

/-- The state once the monitor has noted a TEMP result and its condition. -/
def tempNoted : State :=
  s.modProt fun p => { p with temp := some { raw := raw, merged := merged, age := 0 }, tempCond := p.tempCondOf raw }

/-- The state once TEMP_WARN has been queued, if it is due, before the monitor sends a cause. -/
def tempWarned : State :=
  if s.prot.tempCond = .normal ∧ s.prot.tempCondOf raw ≠ .normal then (tempNoted s raw merged).queueEvent .tempWarn none raw
  else tempNoted s raw merged

/-- What the monitor sends for a bus condition that it has found, by the condition that stood before (R145). -/
def busSent (u : State) (before after : BusCond) : State :=
  match after with
  | .normal => u
  | .overLimit => u.sendCause .busOver (causeReach (before != .overLimit))
  | .underLimit => u.sendCause .busUnder (causeReach (before != .underLimit))

theorem auxResult_bus : s.auxResult .bus raw merged = busSent (busNoted s raw merged) s.prot.busCond (s.prot.busCondOf raw) := rfl

theorem auxResult_temp :
    s.auxResult .temp raw merged =
      if s.prot.tempCondOf raw = .hot then
        (tempWarned s raw merged).sendCause .temperature (causeReach (s.prot.tempCond != .hot))
      else tempWarned s raw merged := rfl

theorem auxResult_spare1 :
    s.auxResult .spare1 raw merged = s.modProt fun p => { p with spare1 := some { raw := raw, merged := merged, age := 0 } } := rfl

theorem auxResult_spare2 :
    s.auxResult .spare2 raw merged = s.modProt fun p => { p with spare2 := some { raw := raw, merged := merged, age := 0 } } := rfl

end

/-! The conditions by the limits (R145, R146). -/

section

variable {p : Protection} {raw : Nat}

theorem busCondOf_over (h : p.busOver < raw) : p.busCondOf raw = .overLimit := if_pos h

theorem busCondOf_under (h : raw ≤ p.busOver) (h0 : p.busUnder ≠ 0) (hu : raw < p.busUnder) : p.busCondOf raw = .underLimit :=
  (if_neg (by omega)).trans (if_pos ⟨h0, hu⟩)

theorem busCondOf_normal (h : raw ≤ p.busOver) (hu : p.busUnder = 0 ∨ p.busUnder ≤ raw) : p.busCondOf raw = .normal :=
  (if_neg (by omega)).trans (if_neg (by omega))

theorem tempCondOf_hot_iff : p.tempCondOf raw = .hot ↔ p.tempTrip < raw := by
  unfold Protection.tempCondOf
  split_ifs <;> simp [*]

theorem tempCondOf_ne_normal_iff : p.tempCondOf raw ≠ .normal ↔ p.tempTrip < raw ∨ p.tempWarn < raw := by
  unfold Protection.tempCondOf
  split_ifs <;> simp [*]

end

/-! ### A cause sent for a condition (R140, R145, R146) -/

theorem chan_causeTurn_other (k : TripCause) (who : ChanState → Bool) (s : State) {c x : Chan} (h : x ≠ c) :
    (causeTurn k who s c).chan x = s.chan x := by
  unfold causeTurn
  split_ifs
  · exact s.chan_reachCause_other k h
  · rfl

theorem masterSeqNow_causeTurn (k : TripCause) (who : ChanState → Bool) (s : State) (c : Chan) :
    (causeTurn k who s c).masterSeqNow = s.masterSeqNow := by
  unfold causeTurn
  split_ifs
  · obtain ⟨htb, hpower, _⟩ := s.reachCause_blocks c k
    exact State.masterSeqNow_congr hpower htb
  · rfl

/-- What a cause sent to the channels makes of one is what its turn makes of it. -/
theorem exists_causeTurn (s : State) (k : TripCause) (who : ChanState → Bool) (c : Chan) :
    ∃ u : State, u.chan c = s.chan c ∧ u.masterSeqNow = s.masterSeqNow ∧
      (s.sendCause k who).chan c = (causeTurn k who u c).chan c := by
  rw [sendCause_eq_turns]
  have other := @chan_causeTurn_other k who
  have seq := masterSeqNow_causeTurn k who
  cases c with
  | m1 => exact ⟨s, rfl, rfl, by rw [other _ (by decide), other _ (by decide)]⟩
  | m2 => exact ⟨_, other s (by decide), seq s _, other _ (by decide)⟩
  | m3 => exact ⟨_, by rw [other _ (by decide), other _ (by decide)], by rw [seq, seq], rfl⟩

/-- From s to t a cause of a condition has come to a channel: a driving channel has tripped; of another only the trip record can have
changed, by the cause joining it where the condition was entered (R140). -/
structure CauseCame (s t : State) (k : TripCause) (entered : Bool) (c : Chan) : Prop where
  driving : (s.chan c).state.driving = true →
    (t.chan c).state = .tripped ∧ (t.chan c).trip = some { first := k, seq := s.masterSeqNow, further := 0 }
  resting : (s.chan c).state.driving = false →
    t.chan c =
      { s.chan c with
        trip := if (s.chan c).state = .tripped ∧ entered = true then (s.chan c).trip.map (·.join k) else (s.chan c).trip }

theorem causeReach_of_driving (entered : Bool) {x : ChanState} (h : x.driving = true) : causeReach entered x = true := by
  cases entered with
  | true => exact bne_iff_ne.2 (by rintro rfl; cases h)
  | false => exact h

theorem causeCame_causeTurn (s : State) {k : TripCause} (hk : ¬(k = .faultInput ∨ k = .supervision)) (entered : Bool) (c : Chan) :
    CauseCame s (causeTurn k (causeReach entered) s c) k entered c := by
  unfold causeTurn
  constructor
  · intro hd
    rw [if_pos (causeReach_of_driving entered hd), reachCause_of_driving k hd, State.chan_enterTripped_same]
    exact ⟨rfl, rfl⟩
  · intro hd
    split_ifs with hwho hjoin hjoin
    · rcases s.reachCause_cases c k with ⟨hd', _⟩ | ⟨_, h⟩ | ⟨_, hk', _⟩ | ⟨_, ht, _⟩
      · simp [hd] at hd'
      · rw [h, State.chan_queueEvent, State.chan_modCh_same]
      · exact absurd hk' hk
      · exact absurd hjoin.1 ht
    · rcases s.reachCause_cases c k with ⟨hd', _⟩ | ⟨ht, _⟩ | ⟨_, hk', _⟩ | ⟨_, _, _, h⟩
      · simp [hd] at hd'
      · have hentered : entered = false := by simpa [ht] using hjoin
        simp [causeReach, hentered, hd] at hwho
      · exact absurd hk' hk
      · rw [h, State.chan_queueEvent]
    · obtain ⟨ht, he⟩ := hjoin
      simp [causeReach, ht, he] at hwho
    · rfl

theorem causeCame_sendCause (s : State) {k : TripCause} (hk : ¬(k = .faultInput ∨ k = .supervision)) (entered : Bool) (c : Chan) :
    CauseCame s (s.sendCause k (causeReach entered)) k entered c := by
  obtain ⟨u, hchan, hseq, ht⟩ := exists_causeTurn s k (causeReach entered) c
  obtain ⟨driving, resting⟩ := causeCame_causeTurn u hk entered c
  rw [hchan, ← ht] at driving resting
  exact ⟨hseq ▸ driving, resting⟩

theorem causeRecords_congr {s u : State} (hch : u.ch = s.ch) (hseq : u.masterSeqNow = s.masterSeqNow) (k : TripCause)
    (who : ChanState → Bool) (l : Link) : u.causeRecords k who l = s.causeRecords k who l := by
  have hchan : u.chan = s.chan := funext fun c => by rw [State.chan, hch, State.chan]
  unfold State.causeRecords
  rw [hchan, hseq]

theorem CauseCame.of_eq {s u t : State} {k : TripCause} {entered : Bool} {c : Chan} (h : CauseCame u t k entered c)
    (hch : u.ch = s.ch) (hseq : u.masterSeqNow = s.masterSeqNow) : CauseCame s t k entered c := by
  obtain ⟨driving, resting⟩ := h
  rw [State.chan, hch] at driving resting
  exact ⟨hseq ▸ driving, resting⟩

/-! A bus or temperature result, once the conversion has left the converter. -/

section

variable (s : State) (raw merged : Nat)

theorem tempWarned_blocks :
    (tempWarned s raw merged).ch = s.ch ∧ (tempWarned s raw merged).prot = (tempNoted s raw merged).prot ∧
      (tempWarned s raw merged).sched = s.sched ∧ (tempWarned s raw merged).masterSeqNow = s.masterSeqNow := by
  unfold tempWarned
  split_ifs
  · refine ⟨State.queueEvent_ch _ _ _ _, State.queueEvent_prot _ _ _ _, State.queueEvent_sched _ _ _ _, ?_⟩
    exact State.masterSeqNow_congr (State.queueEvent_power _ _ _ _) (State.queueEvent_tb _ _ _ _)
  · exact ⟨rfl, rfl, rfl, rfl⟩

theorem tempWarned_link :
    (tempWarned s raw merged).link =
      if s.prot.tempCond = .normal ∧ (s.prot.tempTrip < raw ∨ s.prot.tempWarn < raw) then
        s.link.queueEvent { code := .tempWarn, chan := none, seq := s.masterSeqNow, repeats := 1, detail := raw }
      else s.link := by
  unfold tempWarned
  simp only [tempCondOf_ne_normal_iff]
  split_ifs <;> rfl

/-- A cause sent leaves the monitor, the converter and the counts of completions. -/
theorem countsKept_busSent (before after : BusCond) : CountsKept s (busSent s before after) := by
  cases after with
  | normal => exact .refl s
  | overLimit => exact countsKept_sendCause s _ _
  | underLimit => exact countsKept_sendCause s _ _

theorem countsKept_auxTemp : CountsKept (tempWarned s raw merged) (s.auxResult .temp raw merged) := by
  rw [auxResult_temp]
  exact countsKept_ite (countsKept_sendCause _ _ _) (.refl _)

theorem convertedKept_auxResult (a : AuxSource) : ConvertedKept s (s.auxResult a raw merged) := by
  cases a with
  | bus => exact ConvertedKept.trans (t := busNoted s raw merged) ⟨rfl, fun _ => rfl⟩ (countsKept_busSent _ _ _).converted
  | temp =>
    obtain ⟨hch, _, hsched, _⟩ := tempWarned_blocks s raw merged
    refine ConvertedKept.trans ⟨by rw [hsched], fun c => ?_⟩ (countsKept_auxTemp s raw merged).converted
    rw [State.chan, hch, State.chan]
  | spare1 => exact ⟨rfl, fun _ => rfl⟩
  | spare2 => exact ⟨rfl, fun _ => rfl⟩

end

/-! ### The completion's parts -/

section

variable (s : State) (v : Conversion) (raw : Nat)

theorem convertedKept_completeConversion : ConvertedKept (conversionCounted s v) (s.completeConversion v raw) := by
  cases ho : v.entry.owner with
  | chan c =>
    rw [completeConversion_of_chan ho]
    exact convertedKept_channelResult _ c v raw
  | aux i =>
    by_cases hp : ∃ a, v.entry.purpose = .aux a
    · obtain ⟨a, hp⟩ := hp
      rw [completeConversion_of_aux ho hp]
      exact convertedKept_auxResult _ _ _ a
    · have idle : s.completeConversion v raw = conversionCounted s v := by
        simp only [State.completeConversion, conversionCounted, ho]
        split
        next hc => cases hc
        next hp' => exact absurd ⟨_, hp'⟩ hp
        next => rfl
      rw [idle]
      exact ⟨rfl, fun _ => rfl⟩

/-- The converter is IDLE and the sample is counted for its channel (R110, R121). -/
theorem completeConversion_converted :
    (s.completeConversion v raw).sched.conv = none ∧
      ∀ c, ((s.completeConversion v raw).chan c).converted =
        (s.chan c).converted + (if v.entry.owner = .chan c then 1 else 0) := by
  obtain ⟨hconv, hconverted⟩ := convertedKept_completeConversion s v raw
  exact ⟨hconv.trans (conversionCounted_blocks s v).1, fun c => by rw [hconverted, chan_conversionCounted]⟩

variable {s v} {c : Chan}

theorem completeConversion_cal_counted (ho : v.entry.owner = .chan c) (hp : v.entry.purpose = .cal)
    (hst : (s.chan c).state = .calibrating) (hplan : ∃ p, (s.chan c).curPlan = some p ∧ p.seq = v.entry.seq) :
    ((s.completeConversion v raw).chan c).calSum = (s.chan c).calSum + raw ∧
      ((s.completeConversion v raw).chan c).calResults = (s.chan c).calResults + 1 := by
  have hd := chan_conversionCounted s v c
  rw [completeConversion_of_chan ho, channelResult_of_cal hp, calResult_counted raw (by rw [hd]; exact hst) (by rw [hd]; exact hplan)]
  have kept := (countsKept_calDoneStep
    ((conversionCounted s v).modCh c fun k => { k with calSum := k.calSum + raw, calResults := k.calResults + 1 }) c).counts c
  simp only [counts, State.chan_modCh_same, hd, Prod.mk.injEq] at kept
  exact kept.2

theorem completeConversion_cal_dropped (ho : v.entry.owner = .chan c) (hp : v.entry.purpose = .cal)
    (hst : (s.chan c).state ≠ .calibrating) :
    ((s.completeConversion v raw).chan c).calSum = (s.chan c).calSum ∧
      ((s.completeConversion v raw).chan c).calResults = (s.chan c).calResults := by
  have hd := chan_conversionCounted s v c
  rw [completeConversion_of_chan ho, channelResult_of_cal hp, calResult_dropped _ _ (by rw [hd]; exact hst), hd]
  exact ⟨rfl, rfl⟩

/-- A shunt result changes of its channel the converted count and the working record of its plan, and nothing else but the converter. -/
theorem completeConversion_shunt (ho : v.entry.owner = .chan c) (hp : v.entry.purpose = .shuntA ∨ v.entry.purpose = .shuntB) :
    let t := s.completeConversion v raw
    t.link = s.link ∧ t.tb = s.tb ∧ t.prot = s.prot ∧ s.sameChannelsBut t c ∧
      t.chan c =
        { s.chan c with
          converted := (s.chan c).converted + 1
          rb := (s.chan c).rb.record v.entry.seq (shuntKept (s.chan c) v raw) } := by
  intro t
  obtain ⟨_, hprot, htb, _, hlink⟩ := conversionCounted_blocks s v
  have answered : t = (conversionCounted s v).modRb c
      (·.record v.entry.seq (shuntKept ((conversionCounted s v).chan c) v raw)) := by
    rw [← shuntResult_eq, ← channelResult_of_shunt hp, ← completeConversion_of_chan ho]
  refine ⟨by rw [answered]; exact hlink, by rw [answered]; exact htb, by rw [answered]; exact hprot, fun x hx => ?_, ?_⟩
  · have other : v.entry.owner ≠ .chan x := by rw [ho]; exact fun h => hx (Owner.chan.inj h).symm
    rw [answered, State.modRb, State.chan_modCh_other _ _ hx, chan_conversionCounted, if_neg other, add_zero]
  · rw [answered, State.chan_modRb_same, chan_conversionCounted, if_pos ho]
    rfl

end

/-! Time has passed up to the completion (log 2): of a channel only its gates can differ. -/

theorem chan_elapse_eq (s : State) (n : Nat) (c : Chan) :
    (s.elapse n).chan c = { s.chan c with gates := ((s.elapse n).chan c).gates } := by
  rcases s.chan_elapse n c with h | h <;> rw [h]
  exact Channel.age_eq _ _

section

variable (s : State) (n : Nat) (c : Chan)

@[simp] theorem elapse_state : ((s.elapse n).chan c).state = (s.chan c).state := by rw [chan_elapse_eq]

@[simp] theorem elapse_curPlan : ((s.elapse n).chan c).curPlan = (s.chan c).curPlan := by rw [chan_elapse_eq]

@[simp] theorem elapse_converted : ((s.elapse n).chan c).converted = (s.chan c).converted := by rw [chan_elapse_eq]

@[simp] theorem elapse_calSum : ((s.elapse n).chan c).calSum = (s.chan c).calSum := by rw [chan_elapse_eq]

@[simp] theorem elapse_calResults : ((s.elapse n).chan c).calResults = (s.chan c).calResults := by rw [chan_elapse_eq]

@[simp] theorem elapse_sq : ((s.elapse n).chan c).sq = (s.chan c).sq := by rw [chan_elapse_eq]

@[simp] theorem elapse_rb : ((s.elapse n).chan c).rb = (s.chan c).rb := by rw [chan_elapse_eq]

@[simp] theorem elapse_trip : ((s.elapse n).chan c).trip = (s.chan c).trip := by rw [chan_elapse_eq]

end

/-! A cause is sent from a state that has the channels, the link and the master sequence of another. -/

theorem link_sendCause {s u : State} {l : Link} (hch : u.ch = s.ch) (hlink : u.link = l) (hseq : u.masterSeqNow = s.masterSeqNow)
    (k : TripCause) (who : ChanState → Bool) : (u.sendCause k who).link = s.causeRecords k who l := by
  rw [(u.sendCause_blocks k who).1, hlink, causeRecords_congr hch hseq]

/-! ### A completed BUS or TEMP conversion (R144 to R146) -/

section

variable {s : State} {v : Conversion} {i : Nat} (raw : Nat)

/-- The state once the conversion has left the converter and the monitor has noted its BUS result. -/
def busDone (s : State) (v : Conversion) (raw : Nat) : State := busNoted (conversionCounted s v) raw (v.entry.merged.getD 0)

/-- The state once the conversion has left the converter and the monitor has noted its TEMP result and queued TEMP_WARN, if due. -/
def tempDone (s : State) (v : Conversion) (raw : Nat) : State := tempWarned (conversionCounted s v) raw (v.entry.merged.getD 0)

theorem masterSeqNow_conversionCounted (s : State) (v : Conversion) : (conversionCounted s v).masterSeqNow = s.masterSeqNow := by
  obtain ⟨_, _, htb, hpower, _⟩ := conversionCounted_blocks s v
  exact State.masterSeqNow_congr hpower htb

theorem busDone_blocks (ho : v.entry.owner = .aux i) :
    (busDone s v raw).ch = s.ch ∧ (busDone s v raw).link = s.link ∧ (busDone s v raw).masterSeqNow = s.masterSeqNow := by
  obtain ⟨_, _, _, _, hlink⟩ := conversionCounted_blocks s v
  exact ⟨conversionCounted_aux_ch ho, hlink, masterSeqNow_conversionCounted s v⟩

theorem tempDone_blocks (ho : v.entry.owner = .aux i) :
    (tempDone s v raw).ch = s.ch ∧ (tempDone s v raw).masterSeqNow = s.masterSeqNow := by
  obtain ⟨hch, _, _, hseq⟩ := tempWarned_blocks (conversionCounted s v) raw (v.entry.merged.getD 0)
  exact ⟨hch.trans (conversionCounted_aux_ch ho), hseq.trans (masterSeqNow_conversionCounted s v)⟩

theorem tempDone_link :
    (tempDone s v raw).link =
      if s.prot.tempCond = .normal ∧ (s.prot.tempTrip < raw ∨ s.prot.tempWarn < raw) then
        s.link.queueEvent { code := .tempWarn, chan := none, seq := s.masterSeqNow, repeats := 1, detail := raw }
      else s.link := by
  obtain ⟨_, hprot, _, _, hlink⟩ := conversionCounted_blocks s v
  rw [tempDone, tempWarned_link, hprot, hlink, masterSeqNow_conversionCounted]

theorem completeConversion_bus (ho : v.entry.owner = .aux i) (hp : v.entry.purpose = .aux .bus) :
    s.completeConversion v raw = busSent (busDone s v raw) s.prot.busCond (s.prot.busCondOf raw) := by
  obtain ⟨_, hprot, _⟩ := conversionCounted_blocks s v
  rw [completeConversion_of_aux ho hp, auxResult_bus, hprot, busDone]

theorem completeConversion_temp (ho : v.entry.owner = .aux i) (hp : v.entry.purpose = .aux .temp) :
    s.completeConversion v raw =
      if s.prot.tempTrip < raw then (tempDone s v raw).sendCause .temperature (causeReach (s.prot.tempCond != .hot))
      else tempDone s v raw := by
  obtain ⟨_, hprot, _⟩ := conversionCounted_blocks s v
  simp only [completeConversion_of_aux ho hp, auxResult_temp, hprot, tempCondOf_hot_iff, tempDone]

theorem completeConversion_bus_prot (ho : v.entry.owner = .aux i) (hp : v.entry.purpose = .aux .bus) :
    (s.completeConversion v raw).prot =
      { s.prot with
        bus := some { raw := raw, merged := v.entry.merged.getD 0, age := 0 }
        busCond := s.prot.busCondOf raw
        staleCount := 0
        staleGiven := false } := by
  obtain ⟨_, hprot, _⟩ := conversionCounted_blocks s v
  rw [completeConversion_bus raw ho hp, (countsKept_busSent _ _ _).prot, busDone, busNoted, State.modProt_prot, hprot]

theorem completeConversion_temp_prot (ho : v.entry.owner = .aux i) (hp : v.entry.purpose = .aux .temp) :
    (s.completeConversion v raw).prot =
      { s.prot with
        temp := some { raw := raw, merged := v.entry.merged.getD 0, age := 0 }
        tempCond := s.prot.tempCondOf raw } := by
  obtain ⟨_, hprot, _⟩ := conversionCounted_blocks s v
  obtain ⟨_, hnoted, _⟩ := tempWarned_blocks (conversionCounted s v) raw (v.entry.merged.getD 0)
  rw [completeConversion_of_aux ho hp, (countsKept_auxTemp _ _ _).prot, hnoted, tempNoted, State.modProt_prot, hprot]

theorem completeConversion_bus_link (ho : v.entry.owner = .aux i) (hp : v.entry.purpose = .aux .bus) :
    (s.completeConversion v raw).link =
      if s.prot.busOver < raw then s.causeRecords .busOver (causeReach (s.prot.busCond != .overLimit)) s.link
      else if s.prot.busUnder ≠ 0 ∧ raw < s.prot.busUnder then
        s.causeRecords .busUnder (causeReach (s.prot.busCond != .underLimit)) s.link
      else s.link := by
  obtain ⟨hch, hlink, hseq⟩ := busDone_blocks (s := s) raw ho
  rw [completeConversion_bus raw ho hp]
  split_ifs with hover hunder
  · rw [busCondOf_over hover]
    exact link_sendCause hch hlink hseq _ _
  · rw [busCondOf_under (by omega) hunder.1 hunder.2]
    exact link_sendCause hch hlink hseq _ _
  · rw [busCondOf_normal (by omega) (by omega)]
    exact hlink

theorem completeConversion_temp_link (ho : v.entry.owner = .aux i) (hp : v.entry.purpose = .aux .temp) :
    (s.completeConversion v raw).link =
      if s.prot.tempTrip < raw then
        s.causeRecords .temperature (causeReach (s.prot.tempCond != .hot)) (tempDone s v raw).link
      else (tempDone s v raw).link := by
  obtain ⟨hch, hseq⟩ := tempDone_blocks (s := s) raw ho
  rw [completeConversion_temp raw ho hp]
  split_ifs
  · exact link_sendCause hch rfl hseq _ _
  · rfl

variable {raw}

theorem completeConversion_bus_over (ho : v.entry.owner = .aux i) (hp : v.entry.purpose = .aux .bus) (h : s.prot.busOver < raw)
    (c : Chan) : CauseCame s (s.completeConversion v raw) .busOver (s.prot.busCond != .overLimit) c := by
  obtain ⟨hch, _, hseq⟩ := busDone_blocks (s := s) raw ho
  rw [completeConversion_bus raw ho hp, busCondOf_over h]
  exact (causeCame_sendCause _ (by decide) _ c).of_eq hch hseq

theorem completeConversion_bus_under (ho : v.entry.owner = .aux i) (hp : v.entry.purpose = .aux .bus) (h : raw ≤ s.prot.busOver)
    (h0 : s.prot.busUnder ≠ 0) (hu : raw < s.prot.busUnder) (c : Chan) :
    CauseCame s (s.completeConversion v raw) .busUnder (s.prot.busCond != .underLimit) c := by
  obtain ⟨hch, _, hseq⟩ := busDone_blocks (s := s) raw ho
  rw [completeConversion_bus raw ho hp, busCondOf_under h h0 hu]
  exact (causeCame_sendCause _ (by decide) _ c).of_eq hch hseq

theorem completeConversion_bus_normal (ho : v.entry.owner = .aux i) (hp : v.entry.purpose = .aux .bus) (h : raw ≤ s.prot.busOver)
    (hu : s.prot.busUnder = 0 ∨ s.prot.busUnder ≤ raw) (c : Chan) : (s.completeConversion v raw).chan c = s.chan c := by
  obtain ⟨hch, _, _⟩ := busDone_blocks (s := s) raw ho
  rw [completeConversion_bus raw ho hp, busCondOf_normal h hu, busSent, State.chan, hch, State.chan]

theorem completeConversion_temp_hot (ho : v.entry.owner = .aux i) (hp : v.entry.purpose = .aux .temp) (h : s.prot.tempTrip < raw)
    (c : Chan) : CauseCame s (s.completeConversion v raw) .temperature (s.prot.tempCond != .hot) c := by
  obtain ⟨hch, hseq⟩ := tempDone_blocks (s := s) raw ho
  rw [completeConversion_temp raw ho hp, if_pos h]
  exact (causeCame_sendCause _ (by decide) _ c).of_eq hch hseq

theorem completeConversion_temp_cool (ho : v.entry.owner = .aux i) (hp : v.entry.purpose = .aux .temp) (h : raw ≤ s.prot.tempTrip)
    (c : Chan) : (s.completeConversion v raw).chan c = s.chan c := by
  obtain ⟨hch, _⟩ := tempDone_blocks (s := s) raw ho
  rw [completeConversion_temp raw ho hp, if_neg (by omega), State.chan, hch, State.chan]

end

/-! ### The statement's own words for whom a cause reaches, and for what it does there -/

theorem causeReach_eq (entered : Bool) :
    causeReach entered = fun x => if entered then decide (x ≠ .unconfigured) else x.driving := by
  funext x
  cases entered <;> cases x <;> rfl

theorem bne_eq_decide_ne {α : Type} [DecidableEq α] (a b : α) : (a != b) = decide (a ≠ b) := by
  by_cases h : a = b <;> simp [h]

/-- After time has passed, a cause come to a channel in the terms of the state before. -/
theorem CauseCame.since {s t : State} {n : Nat} {k : TripCause} {entered : Bool} {c : Chan}
    (h : CauseCame (s.elapse n) t k entered c) :
    ((s.chan c).state.driving = true →
      (t.chan c).state = .tripped ∧ (t.chan c).trip = some { first := k, seq := (s.elapse n).masterSeqNow, further := 0 }) ∧
    ((s.chan c).state.driving = false →
      (t.chan c).state = (s.chan c).state ∧ (t.chan c).gates = ((s.elapse n).chan c).gates ∧
        (t.chan c).calSum = (s.chan c).calSum ∧
        (t.chan c).trip =
          if (s.chan c).state = .tripped ∧ entered = true then (s.chan c).trip.map (·.join k) else (s.chan c).trip) := by
  obtain ⟨driving, resting⟩ := h
  simp only [elapse_state, elapse_trip] at driving resting
  refine ⟨driving, fun hd => ?_⟩
  rw [resting hd]
  exact ⟨rfl, rfl, elapse_calSum s n c, rfl⟩

/-- Settles O56: the completion counted, then the result by its owner and purpose, each from the state that time has led to. -/
theorem conversionCompletesAndReachesItsOwner : Obligations.ConversionCompletesAndReachesItsOwner := by
  intro raw s v hv begun latest
  have hprot : begun.prot = s.prot := s.elapse_prot v.left
  have hrun : exec (.conversionComplete raw) s = .next (begun.completeConversion v raw.toNat).settle := by
    change execConversionComplete raw s = _
    simp only [execConversionComplete, hv, done_eq]
    rfl
  obtain ⟨hidle, hconverted⟩ := completeConversion_converted begun v raw.toNat
  refine ⟨begun.completeConversion v raw.toNat, hrun, hidle, fun c => ?converted, fun c ho hp hst hplan => ?calCounted,
    fun c ho hp hst => ?calDropped, fun c ho hp => ?shunt, fun i ho => ⟨fun hp => ?spare1, fun hp => ?spare2⟩,
    fun i ho hp => ?busLink, fun i ho hp => ?tempLink, fun i ho hp => ?busProt, fun i ho hp => ?tempProt, fun i ho hp c => ?bus,
    fun i ho hp c => ?temp⟩
  case converted => rw [hconverted, elapse_converted]
  case calCounted =>
    have sums := completeConversion_cal_counted raw.toNat (s := begun) ho hp (by rwa [elapse_state]) (by rwa [elapse_curPlan])
    rwa [elapse_calSum, elapse_calResults] at sums
  case calDropped =>
    have sums := completeConversion_cal_dropped raw.toNat (s := begun) ho hp (by rwa [elapse_state])
    rwa [elapse_calSum, elapse_calResults] at sums
  case shunt =>
    obtain ⟨hlink, htb, hkept, others, hown⟩ := completeConversion_shunt raw.toNat (s := begun) ho hp
    have hrb : ((begun.completeConversion v raw.toNat).chan c).rb =
        (s.chan c).rb.record v.entry.seq (shuntKept (begun.chan c) v raw.toNat) := by rw [hown, elapse_rb]
    refine ⟨hlink, htb, hkept.trans hprot, others, by rw [hown], by rw [hown, elapse_state], by rw [hown, elapse_sq],
      fun hw => hrb.trans (record_none _ _ hw), fun w hw => ?_⟩
    rw [record_some _ _ hw] at hrb
    refine ⟨fun hseq => ?_, fun p hseq hb => ?_, fun p q b hseq hb hA hq hqb => ?_⟩
    · rw [hrb, if_neg hseq, ← hw]
    · rw [hrb, if_pos hseq, shuntKept_vector _ _ _ hb, setPlace_shunt hp]
    · rw [hrb, if_pos hseq, shuntKept_step _ _ hb (by rwa [elapse_curPlan]) hqb, setPlace_shunt hp, elapse_sq]
      rfl
  case spare1 =>
    obtain ⟨_, hdprot, _, _, hdlink⟩ := conversionCounted_blocks begun v
    rw [completeConversion_of_aux ho hp, auxResult_spare1]
    exact ⟨by rw [State.modProt_prot, hdprot, hprot], conversionCounted_aux_ch ho, hdlink⟩
  case spare2 =>
    obtain ⟨_, hdprot, _, _, hdlink⟩ := conversionCounted_blocks begun v
    rw [completeConversion_of_aux ho hp, auxResult_spare2]
    exact ⟨by rw [State.modProt_prot, hdprot, hprot], conversionCounted_aux_ch ho, hdlink⟩
  case busLink =>
    intro reach
    have hreach : ∀ b, causeReach b = reach b := causeReach_eq
    rw [completeConversion_bus_link raw.toNat ho hp, hprot, hreach, hreach, bne_eq_decide_ne, bne_eq_decide_ne]
  case tempLink =>
    intro reach warned
    have hreach : ∀ b, causeReach b = reach b := causeReach_eq
    have hwarned : (tempDone begun v raw.toNat).link = warned := by rw [tempDone_link, hprot]
    rw [completeConversion_temp_link raw.toNat ho hp, hwarned, hprot, hreach, bne_eq_decide_ne]
  case busProt =>
    rw [completeConversion_bus_prot raw.toNat ho hp, hprot]
    exact ⟨rfl, rfl, rfl⟩
  case tempProt =>
    rw [completeConversion_temp_prot raw.toNat ho hp, hprot]
    exact ⟨rfl, rfl⟩
  case bus =>
    rw [← hprot, ← bne_eq_decide_ne, ← bne_eq_decide_ne]
    exact ⟨fun h => (completeConversion_bus_over ho hp h c).since,
      fun h h0 hu => (completeConversion_bus_under ho hp h h0 hu c).since, fun h hu => completeConversion_bus_normal ho hp h hu c⟩
  case temp =>
    rw [← hprot, ← bne_eq_decide_ne]
    exact ⟨fun h => (completeConversion_temp_hot ho hp h c).since, fun h => completeConversion_temp_cool ho hp h c⟩

end Sys2Proof.Scheduling

/-!
The close of a period (ch.7): the currents of its results, the over-limit count and its trip, the report count and the report's bytes.
-/

namespace Sys2Proof.Currents

open Sys2Proof Sys2Proof.Machine Sys2Proof.Motor

/-! ### Currents (R126 to R129) -/

@[simp] theorem get_invalidCurrents (y : Phase) : invalidCurrents.get y = .invalid := by cases y <;> rfl

/-- The three roles of a step fall on three phases (R76), whatever the index. -/
theorem roles_apart (i : Nat) :
    highPhase i ≠ lowPhase i ∧ highPhase i ≠ floatPhase i ∧ lowPhase i ≠ floatPhase i := by
  match i with
  | 0 | 1 | 2 | 3 | 4 => decide
  | _ + 5 => exact ⟨by rintro ⟨⟩, by rintro ⟨⟩, by rintro ⟨⟩⟩

/-- R127 with both results: the three currents sum to zero, so the two measured ones give the middle one. -/
theorem vectorTriple_both (a b z : Nat) :
    vectorTriple (some a) (some b) z =
      (validCurrent ((a : Int) - z), validCurrent ((b : Int) - a), validCurrent ((z : Int) - b)) := by
  have hlast : -((b : Int) - z) = z - b := by omega
  have hmiddle : -((a : Int) - z + (z - b)) = b - a := by omega
  simp only [vectorTriple, hlast, hmiddle]

theorem vectorTriple_onlyB (b z : Nat) :
    vectorTriple none (some b) z = (.invalid, .invalid, validCurrent ((z : Int) - b)) := by
  have hlast : -((b : Int) - z) = z - b := by omega
  simp only [vectorTriple, hlast]

section

variable {w : WorkRecord} {z : Nat}

/-- R128: each place of the sort order takes its phase's current. -/
theorem formCurrents_vector {v : VectorPlan} (hbody : w.plan.body = .vector v) (hfm : v.first ≠ v.middle)
    (hfl : v.first ≠ v.last) (hml : v.middle ≠ v.last) :
    (formCurrents w z).get v.first = (vectorTriple w.placeA.raw w.placeB.raw z).1 ∧
      (formCurrents w z).get v.middle = (vectorTriple w.placeA.raw w.placeB.raw z).2.1 ∧
      (formCurrents w z).get v.last = (vectorTriple w.placeA.raw w.placeB.raw z).2.2 := by
  simp [formCurrents, hbody, PerPhase.get_set, hfm, hfl, hml]

theorem formCurrents_vector_missing {v : VectorPlan} (hbody : w.plan.body = .vector v) (hA : w.placeA.raw = none)
    (hB : w.placeB.raw = none) (y : Phase) : (formCurrents w z).get y = .invalid := by
  simp [formCurrents, hbody, hA, hB, vectorTriple, PerPhase.get_set]

/-- R129: the roles kept with SHUNT_A take its current. -/
theorem formCurrents_step {p : StepPlan} {a i : Nat} {fl : Bool} (hbody : w.plan.body = .step p)
    (hA : w.placeA.raw = some a) (hroles : w.sampled = some (i, fl)) :
    (formCurrents w z).get (highPhase i) = validCurrent ((a : Int) - z) ∧
      (formCurrents w z).get (lowPhase i) = validCurrent ((z : Int) - a) ∧
      (formCurrents w z).get (floatPhase i) = { value := 0, valid := fl } := by
  obtain ⟨hhl, hhf, hlf⟩ := roles_apart i
  have hlow : -((a : Int) - z) = z - a := by omega
  simp [formCurrents, hbody, hA, hroles, PerPhase.get_set, hhl, hhf, hlf, hlow]

theorem formCurrents_step_missing {p : StepPlan} (hbody : w.plan.body = .step p) (hA : w.placeA.raw = none) (y : Phase) :
    (formCurrents w z).get y = .invalid := by
  simp [formCurrents, hbody, hA]

end

/-! ### The over-limit count (R131) -/

/-- R131's first row: a valid current beyond the limit. -/
def OverLimit (x : PerPhase Current) (limit : Nat) : Prop := ∃ y, (x.get y).valid = true ∧ limit < (x.get y).value.natAbs

theorem overLimit_iff (x : PerPhase Current) (limit : Nat) :
    OverLimit x limit ↔ (x.u.exceeds limit || x.v.exceeds limit || x.w.exceeds limit) = true := by
  simp only [Current.exceeds, Bool.or_eq_true, Bool.and_eq_true, decide_eq_true_eq]
  constructor
  · rintro ⟨y, hy⟩
    cases y
    · exact .inl (.inl hy)
    · exact .inl (.inr hy)
    · exact .inr hy
  · rintro ((hu | hv) | hw)
    · exact ⟨.u, hu⟩
    · exact ⟨.v, hv⟩
    · exact ⟨.w, hw⟩

theorem allValid_iff (x : PerPhase Current) :
    (∀ y, (x.get y).valid = true) ↔ (x.u.valid && x.v.valid && x.w.valid) = true := by
  simp only [Bool.and_eq_true]
  refine ⟨fun h => ⟨⟨h .u, h .v⟩, h .w⟩, ?_⟩
  rintro ⟨⟨hu, hv⟩, hw⟩ y
  cases y
  · exact hu
  · exact hv
  · exact hw

section

variable {x : PerPhase Current} {limit : Nat} (n : Nat)

theorem overAfter_over (h : OverLimit x limit) : overAfter n x limit = min 15 (n + 1) :=
  if_pos ((overLimit_iff x limit).1 h)

theorem overAfter_within (h : ¬OverLimit x limit) (hv : ∀ y, (x.get y).valid = true) : overAfter n x limit = 0 :=
  (if_neg (mt (overLimit_iff x limit).2 h)).trans (if_pos ((allValid_iff x).1 hv))

theorem overAfter_unknown (h : ¬OverLimit x limit) (hv : ¬∀ y, (x.get y).valid = true) : overAfter n x limit = n :=
  (if_neg (mt (overLimit_iff x limit).2 h)).trans (if_neg (mt (allValid_iff x).2 hv))

end

/-! ### Steps 1 to 4 of a close (R130, R133, R135) -/

/-- The report count after a close with report interval r (R133): 0 at r = 0 and where a report is due. -/
def reportAfter (r n : Nat) : Nat := if r = 0 ∨ r ≤ n + 1 then 0 else n + 1

/-- The rebuilder after steps 1 to 4 of a close. -/
def closedRb (k : Channel) (w : WorkRecord) : Rebuilder :=
  { k.rb with
    cur := formCurrents w k.z
    curSeq := some w.plan.seq
    overCount := overAfter k.rb.overCount (formCurrents w k.z) k.active.curLimit
    report := reportAfter k.active.report k.rb.report }

/-- The state after steps 1 to 4 of a close, which step 5 examines. -/
def closeCounted (s : State) (c : Chan) (w : WorkRecord) : State := (s.formStep c w).reportStep c w

section

variable (s : State) (c : Chan) (w : WorkRecord)

theorem chan_formStep :
    (s.formStep c w).chan c =
      { s.chan c with
        rb :=
          { (s.chan c).rb with
            cur := formCurrents w (s.chan c).z
            curSeq := some w.plan.seq
            overCount := overAfter (s.chan c).rb.overCount (formCurrents w (s.chan c).z) (s.chan c).active.curLimit } } :=
  State.chan_modRb_same _ _ _

/-- Steps 1 to 3 by the count that they leave. -/
theorem formStep_eq {n : Nat}
    (hn : n = overAfter (s.chan c).rb.overCount (formCurrents w (s.chan c).z) (s.chan c).active.curLimit) :
    s.formStep c w =
      s.modCh c (fun y =>
        { y with
          rb := { y.rb with cur := formCurrents w (s.chan c).z, curSeq := some w.plan.seq, overCount := n } }) := by
  subst hn
  rfl

/-- Of its channel, step 4 changes the report count alone. -/
theorem chan_reportStep :
    (s.reportStep c w).chan c =
      { s.chan c with
        rb := { (s.chan c).rb with report := reportAfter (s.chan c).active.report (s.chan c).rb.report } } := by
  unfold State.reportStep reportAfter
  by_cases h0 : (s.chan c).active.report = 0
  · simp [h0]
  · by_cases hdue : (s.chan c).active.report ≤ (s.chan c).rb.report + 1
    · simp [h0, hdue, chan_emitReport_same]
    · simp [h0, hdue]

theorem reportStep_link :
    (s.reportStep c w).link =
      if (s.chan c).active.report ≠ 0 ∧ (s.chan c).active.report ≤ (s.chan c).rb.report + 1 then
        s.link.handReport c (s.reportPayload c w)
      else s.link := by
  unfold State.reportStep
  by_cases h0 : (s.chan c).active.report = 0
  · simp [h0]
  · by_cases hdue : (s.chan c).active.report ≤ (s.chan c).rb.report + 1
    · simp [h0, hdue, State.emitReport]
    · simp [h0, hdue]

theorem reportStep_blocks : (s.reportStep c w).power = s.power ∧ (s.reportStep c w).tb = s.tb := by
  unfold State.reportStep
  simp only
  split_ifs <;> exact ⟨rfl, rfl⟩

theorem chan_closeCounted : (closeCounted s c w).chan c = { s.chan c with rb := closedRb (s.chan c) w } := by
  rw [closeCounted, chan_reportStep, chan_formStep]
  rfl

/-- A due report goes to the link with the bytes that the currents and the count just formed give. -/
theorem closeCounted_link :
    (closeCounted s c w).link =
      if (s.chan c).active.report ≠ 0 ∧ (s.chan c).active.report ≤ (s.chan c).rb.report + 1 then
        s.link.handReport c ((s.formStep c w).reportPayload c w)
      else s.link := by
  rw [closeCounted, reportStep_link, chan_formStep]
  rfl

theorem masterSeqNow_closeCounted : (closeCounted s c w).masterSeqNow = s.masterSeqNow := by
  obtain ⟨hpower, htb⟩ := reportStep_blocks (s.formStep c w) c w
  exact State.masterSeqNow_congr hpower htb

end

/-! ### Step 5 of a close (R132) -/

/-- The channel is tripped at the close: by the count that step 3 leaves, or by the one before it (log 43). -/
def TripsAtClose (k : Channel) (w : WorkRecord) : Prop :=
  k.state.running = true ∧
    (k.active.limitPeriods ≤ (closedRb k w).overCount ∨ k.active.limitPeriods ≤ k.rb.overCount)

section

variable {s : State} {c : Chan} {w : WorkRecord}

theorem closePeriod_of_work (hw : (s.chan c).rb.work = some w) :
    s.closePeriod c = (closeCounted s c w).limitStep c (s.chan c).rb.overCount := by
  unfold State.closePeriod
  rw [hw]
  rfl

theorem closePeriod_trips (hw : (s.chan c).rb.work = some w) (h : TripsAtClose (s.chan c) w) :
    s.closePeriod c = (closeCounted s c w).enterTripped c .currentLimit := by
  have hdriving : ((closeCounted s c w).chan c).state.driving = true := by
    rw [chan_closeCounted]
    exact (driving_iff _).2 (.inl h.1)
  rw [closePeriod_of_work hw, State.limitStep, chan_closeCounted, ← reachCause_of_driving _ hdriving]
  exact if_pos (by simpa [TripsAtClose] using h)

theorem closePeriod_goesOn (hw : (s.chan c).rb.work = some w) (h : ¬TripsAtClose (s.chan c) w) :
    s.closePeriod c = closeCounted s c w := by
  rw [closePeriod_of_work hw, State.limitStep, chan_closeCounted]
  exact if_neg (by simpa [TripsAtClose] using h)

/-- What steps 1 to 4 leave of the currents and the counts stands after step 5, also on a channel that trips. -/
theorem closePeriod_counts (hw : (s.chan c).rb.work = some w) :
    let rb := ((s.closePeriod c).chan c).rb
    rb.cur = formCurrents w (s.chan c).z ∧ rb.curSeq = some w.plan.seq ∧
      rb.overCount = (closedRb (s.chan c) w).overCount ∧
      rb.report = reportAfter (s.chan c).active.report (s.chan c).rb.report := by
  by_cases h : TripsAtClose (s.chan c) w
  · rw [closePeriod_trips hw h, State.chan_enterTripped_same, State.chan_endRun_same, chan_closeCounted]
    exact ⟨rfl, rfl, rfl, rfl⟩
  · rw [closePeriod_goesOn hw h, chan_closeCounted]
    exact ⟨rfl, rfl, rfl, rfl⟩

theorem closePeriod_tripped (hw : (s.chan c).rb.work = some w) (h : TripsAtClose (s.chan c) w) :
    ((s.closePeriod c).chan c).state = .tripped ∧
      ((s.closePeriod c).chan c).trip = some { first := .currentLimit, seq := s.masterSeqNow, further := 0 } ∧
      (s.closePeriod c).link =
        (closeCounted s c w).link.queueEvent
          { code := .trip, chan := some c, seq := s.masterSeqNow, repeats := 1, detail := TripCause.currentLimit.code } := by
  rw [closePeriod_trips hw h, State.chan_enterTripped_same, enterTripped_link, masterSeqNow_closeCounted]
  exact ⟨rfl, rfl, rfl⟩

theorem closePeriod_runsOn (hw : (s.chan c).rb.work = some w) (h : ¬TripsAtClose (s.chan c) w) :
    ((s.closePeriod c).chan c).state = (s.chan c).state ∧ ((s.closePeriod c).chan c).trip = (s.chan c).trip ∧
      ((s.closePeriod c).chan c).gates = (s.chan c).gates ∧ (s.closePeriod c).link = (closeCounted s c w).link := by
  rw [closePeriod_goesOn hw h, chan_closeCounted]
  exact ⟨rfl, rfl, rfl, rfl⟩

/-- A running channel that stands in TRIPPED after the close was tripped by step 5. -/
theorem tripsAtClose_of_tripped (hw : (s.chan c).rb.work = some w) (hrun : (s.chan c).state.running = true)
    (ht : ((s.closePeriod c).chan c).state = .tripped) : TripsAtClose (s.chan c) w := by
  by_contra h
  exact ne_tripped_of_running hrun ((closePeriod_runsOn hw h).1.symm.trans ht)

theorem not_tripsAtClose_of_state_eq (hw : (s.chan c).rb.work = some w)
    (hs : ((s.closePeriod c).chan c).state = (s.chan c).state) : ¬TripsAtClose (s.chan c) w := fun h =>
  ne_tripped_of_running h.1 (hs.symm.trans (closePeriod_tripped hw h).1)

end

/-! ### The statement, with the bytes of a report (R134, R180) -/

/-- Settles O53: the currents by which results have arrived, the counts and the link by whether step 5 trips, the bytes by the kind of
plan. -/
theorem periodCloseFormsCurrentsAndCountsOverLimit : Obligations.PeriodCloseFormsCurrentsAndCountsOverLimit := by
  refine ⟨fun w v z hbody hfm hfl hml => ?vector, fun w p z a i fl hbody hA hroles => ?step, fun w p z hbody hA y => ?missing,
    fun s c w hw => ?close, fun s c w => ⟨Config.freeByte s.fresh 0, ?bytes⟩⟩
  case vector =>
    intro x
    obtain ⟨hf, hm, hl⟩ := formCurrents_vector (z := z) hbody hfm hfl hml
    refine ⟨fun a b hA hB => ?_, fun a hA hB => ?_, fun b hA hB => ?_, formCurrents_vector_missing hbody⟩ <;>
      rw [hA, hB] at hf hm hl
    · rw [vectorTriple_both] at hf hm hl
      exact ⟨hf, hl, hm⟩
    · exact ⟨hf, hm, hl⟩
    · rw [vectorTriple_onlyB] at hf hm hl
      exact ⟨hl, hf, hm⟩
  case step => exact formCurrents_step hbody hA hroles
  case missing => exact formCurrents_step_missing hbody hA y
  case close =>
    obtain ⟨hcur, hseq, hcount, hreport⟩ := closePeriod_counts hw
    intro k t x high whole
    refine ⟨hcur, hseq, fun h => hcount.trans (overAfter_over _ h), fun h hv => hcount.trans (overAfter_within _ h hv),
      fun h hv => hcount.trans (overAfter_unknown _ h hv), fun hrun hover => ?_, fun hstays => ?_, ?_⟩
    · obtain ⟨hstate, htrip, -⟩ := closePeriod_tripped hw ⟨hrun, hcount ▸ hover⟩
      exact ⟨hstate, htrip⟩
    · have hon : ¬TripsAtClose (s.chan c) w := by
        rintro ⟨hrun, hover⟩
        rcases hstays with hstill | ⟨hafter, hbefore⟩
        · exact Bool.false_ne_true (hstill.symm.trans hrun)
        · exact hover.elim (Nat.not_le.2 (hcount ▸ hafter)) (Nat.not_le.2 hbefore)
      obtain ⟨hstate, htrip, hgates, -⟩ := closePeriod_runsOn hw hon
      exact ⟨hstate, htrip, hgates⟩
    · intro due bytes handed reported
      have hformed : (s.formStep c w).reportPayload c w = bytes :=
        congrArg (·.reportPayload c w) (formStep_eq s c w hcount)
      have hlink : (closeCounted s c w).link = reported := by
        rw [closeCounted_link, hformed]
        rfl
      refine ⟨fun h => hreport.trans (if_pos ?_), fun h0 hlt => hreport.trans (if_neg ?_), fun hsame => ?_, fun hrun htrip => ?_⟩
      · exact h.imp_right And.right
      · exact not_or.2 ⟨h0, Nat.not_le.2 hlt⟩
      · obtain ⟨-, -, -, hsent⟩ := closePeriod_runsOn hw (not_tripsAtClose_of_state_eq hw hsame)
        exact hsent.trans hlink
      · obtain ⟨-, -, hsent⟩ := closePeriod_tripped hw (tripsAtClose_of_tripped hw hrun htrip)
        rw [hsent, hlink]
  case bytes =>
    intro k b w2 w4 bit current outcome lateness
    have hchan : byte (chanCode c) = match c with | .m1 => (1 : Byte) | .m2 => 2 | .m3 => 3 := by cases c <;> rfl
    have hkind : byte k.active.kind.code = match k.active.kind with | .vector => (0 : Byte) | .step => 1 := by
      cases k.active.kind <;> rfl
    have hstate : k.state.code = match k.state with
        | .unconfigured => 0 | .stopped => 1 | .calibrating => 2 | .vector => 3 | .align => 4
        | .ramp => 5 | .closed => 6 | .braking => 7 | .tripped => 8 := by cases k.state <;> rfl
    have houtcome : ∀ p : Place, p.code = outcome p := by intro p; cases p <;> rfl
    have hlateness : ∀ p : Place, p.lateness = lateness p := by intro p; cases p <;> rfl
    have hbus : busBytes s.prot.bus (Config.freeByte s.fresh 0) =
        match s.prot.bus with
        | some a => w2 a.raw ++ [b a.age]
        | none => [0xFF, 0xFF, Config.freeByte s.fresh 0] := by cases s.prot.bus <;> rfl
    have hk : s.chan c = k := rfl
    clear_value k
    simp only [State.reportPayload, hk, currentBytes, List.append_assoc, le1, hchan, hkind, hstate, houtcome, hlateness, hbus]
    cases hbody : w.plan.body with
    | vector p => simp only [Plan.flags, reportTail, hbody, List.append_assoc]; rfl
    | step p => simp only [Plan.flags, reportTail, hbody]; cases w.sampled <;> rfl
    | cal => simp only [Plan.flags, reportTail, hbody]; rfl

end Sys2Proof.Currents

/-!
The protection of the device: ATTN, which every step leaves at the level of its conditions, and the assertion of a fault input.
-/

namespace Sys2Proof.SafeStates

open Sys2Proof Sys2Proof.Machine Sys2Proof.Motor

/-! ### ATTN (R149) -/

/-- The answers of a command: it changes nothing (log 3), or the end of a step completes what it did. -/
inductive EndsStep (s : State) : Host.Outcome State Fault Refusal → Prop
  | unchanged : EndsStep s (.next s)
  | settled (u : State) : EndsStep s (done u)

theorem EndsStep.ite {p : Prop} [Decidable p] {s : State} {a b : Host.Outcome State Fault Refusal} (ha : EndsStep s a)
    (hb : EndsStep s b) : EndsStep s (if p then a else b) := by
  split_ifs
  · exact ha
  · exact hb

theorem EndsStep.takeRequest {α : Type} (type tag : Byte) (pl : Bool) (fields : Option α) (owner : α → State → State × Answer)
    (s : State) : EndsStep s (takeRequest type tag pl fields owner s) := by
  refine .ite ?_ .unchanged
  cases fields with
  | none => exact .settled _
  | some a => exact .ite (.settled _) (.settled _)

/-- Every command, by the shape of its meaning: a request; an effect in every state; an effect under a test, or under what a match of the
state finds. -/
theorem exec_endsStep (i : Instr) (s : State) : EndsStep s (exec i s) := by
  cases i
  case ident | setLink | reset | sleep | deviceStatus | channelStatus | recover | supervise | heartbeat | carrier | converter
      | auxPlan | limits | channelSetup | activate | profile | calibrate | start | stopCoast | stopBrake | vectorSet | stepSet
      | clearTrip =>
    exact .takeRequest _ _ _ _ _ s
  case powerOnReset | pinReset | busStale | stale | staleTrip | calTimeout | lostSync | calDone | currentLimit =>
    exact .settled _
  case masterPeriodStart | handover | resetRelease | slowStep | windowExpiry | frameTimeout =>
    exact .ite (.settled _) .unchanged
  case unknownType => exact .ite .unchanged (.settled _)
  case faultInputAssertion | faultInputRelease => exact .ite (.settled _) (.settled _)
  case characterArrival => exact .ite (.ite (.ite .unchanged (.settled _)) (.settled _)) .unchanged
  case startUpEnd | wakeComplete | frameSent | setLinkInForce | messageReset | quietEntry | gapEnd | channelPeriodStart
      | halfPeriodPoint | pendingTurnOn | conversionComplete =>
    simp only [exec, execStartUpEnd, execWakeComplete, execFrameSent, execSetLinkInForce, execMessageReset, execQuietEntry,
      execGapEnd, execChannelPeriodStart, execHalfPeriodPoint, execPendingTurnOn, execConversionComplete]
    split
    · exact .settled _
    · exact .unchanged
  case commutationDue =>
    simp only [exec, execCommutationDue]
    split
    · exact .ite .unchanged (.settled _)
    · exact .unchanged
  case periodReport =>
    simp only [exec, execPeriodReport]
    split
    · exact .ite (.settled _) .unchanged
    · exact .unchanged
  case gateEdge =>
    simp only [exec, execGateEdge]
    split
    · split
      · exact .unchanged
      · exact .settled _
    · exact .unchanged
  case conversionStart | late =>
    simp only [exec, execConversionStart, execLate]
    split
    · split
      · exact .settled _
      · exact .unchanged
    · exact .unchanged

theorem EndsStep.attnRight {s t : State} {o : Host.Outcome State Fault Refusal} (h : EndsStep s o) (hs : s.attnRight)
    (ht : o = .next t) : t.attnRight := by
  cases h with
  | unchanged =>
    cases ht
    exact hs
  | settled u =>
    cases ht
    exact u.settle_attnRight

/-- A raised command waits in the queue, which ATTN does not depend on. -/
theorem attnRight_raise {s : State} (i : Instr) (fromBuffer : Bool) (hs : s.attnRight) : (s.raise i fromBuffer).attnRight := by
  cases fromBuffer <;> exact hs

theorem attnRight_idle {s : State} (hs : s.attnRight) : s.idle.attnRight := by
  simp only [State.idle]
  split
  · exact attnRight_raise _ _ hs
  · split
    · exact attnRight_raise _ _ hs
    · exact s.elapse_attnRight 1 hs

/-- Settles O7: a command's step ends in `State.settle` or changes nothing, and the idle step keeps the level. -/
theorem attnFollowsItsConditions : Obligations.AttnFollowsItsConditions := by
  intro s t hs h
  unfold step at h
  split at h
  next i rest _ => exact (exec_endsStep i { s with pending := rest }).attnRight hs h
  next =>
    cases h
    exact attnRight_idle hs

/-! ### Fault inputs (R141 to R143) -/

/-- The state in which FAULT_INPUT reaches its channel: the six gates are off, and a safe state in force is OPEN (R142, R143). -/
def gatesCut (s : State) (c : Chan) : State :=
  s.modCh c fun k =>
    { k with gates := Gates.allOff k.gates s.tb.now s.tb.d, safe := k.safe.map fun _ => .openAll }

theorem faultAsserted_eq (s : State) (c : Chan) : s.faultAsserted c = (gatesCut s c).reachCause c .faultInput := by
  unfold State.faultAsserted gatesCut
  rw [modGates_modCh]

theorem chan_gatesCut (s : State) (c : Chan) :
    (gatesCut s c).chan c =
      { s.chan c with
        gates := Gates.allOff (s.chan c).gates s.tb.now s.tb.d, safe := (s.chan c).safe.map fun _ => .openAll } :=
  State.chan_modCh_same _ _ _

theorem chan_faultAsserted_other (s : State) {c x : Chan} (h : x ≠ c) : (s.faultAsserted c).chan x = s.chan x := by
  rw [faultAsserted_eq, State.chan_reachCause_other _ _ h]
  exact State.chan_modCh_other _ _ h

theorem reachCause_prot (s : State) (c : Chan) (k : TripCause) : (s.reachCause c k).prot = s.prot := by
  rcases s.reachCause_cases c k with ⟨_, h⟩ | ⟨_, h⟩ | ⟨_, _, h⟩ | ⟨_, _, _, h⟩ <;> rw [h] <;> rfl

theorem faultAsserted_prot (s : State) (c : Chan) : (s.faultAsserted c).prot = s.prot := by
  rw [faultAsserted_eq, reachCause_prot]
  rfl

/-- What an assertion makes of its channel k at the master sequence seq, by the channel's state (R140, R142, R143). -/
structure Asserted (k : Channel) (seq : Seq) (k' : Channel) : Prop where
  off : AllOff k'.gates
  driving : k.state.driving = true →
    k'.state = .tripped ∧ k'.safe = some .openAll ∧ k'.trip = some { first := .faultInput, seq := seq, further := 0 }
  tripped : k.state = .tripped → k'.state = .tripped ∧ k'.safe = k.safe.map fun _ => .openAll
  calibrating : k.state = .calibrating → k'.state = .stopped ∧ k'.z = k.z
  idle : k.state = .stopped ∨ k.state = .unconfigured → k'.state = k.state ∧ k'.trip = k.trip

theorem faultAsserted_asserted (s : State) (c : Chan) : Asserted (s.chan c) s.masterSeqNow ((s.faultAsserted c).chan c) := by
  have cut := chan_gatesCut s c
  have cutState : ((gatesCut s c).chan c).state = (s.chan c).state := by rw [cut]
  rw [faultAsserted_eq]
  rcases (gatesCut s c).reachCause_cases c .faultInput with ⟨hs, he⟩ | ⟨hs, he⟩ | ⟨hs, _, he⟩ | ⟨hd, ht, hc, he⟩ <;> rw [he]
  case inl =>
    rw [cutState] at hs
    have out : ∀ x : ChanState, x.driving = false → (s.chan c).state ≠ x := by
      rintro x hx rfl
      exact Bool.false_ne_true (hx.symm.trans hs)
    rw [State.chan_enterTripped_same]
    exact ⟨allOff_allOff _ _ _, fun _ => ⟨rfl, rfl, rfl⟩, fun h => absurd h (out _ rfl), fun h => absurd h (out _ rfl),
      fun h => h.elim (absurd · (out _ rfl)) (absurd · (out _ rfl))⟩
  case inr.inl =>
    rw [cutState] at hs
    rw [State.chan_queueEvent, State.chan_modCh_same, cut]
    refine ⟨allOff_allOff _ _ _, ?_, fun _ => ⟨hs, rfl⟩, ?_, ?_⟩ <;> rw [hs] <;> simp [ChanState.driving, ChanState.running]
  case inr.inr.inl =>
    rw [cutState] at hs
    rw [State.chan_queueEvent]
    unfold State.calFailed
    rw [State.chan_queueEvent, State.chan_toStopped_same, State.chan_endRun_same, cut]
    refine ⟨allOff_allOff _ _ _, ?_, ?_, fun _ => ⟨rfl, rfl⟩, ?_⟩ <;> rw [hs] <;> simp [ChanState.driving, ChanState.running]
  case inr.inr.inr =>
    rw [cutState] at hd ht hc
    rw [State.chan_queueEvent, cut]
    exact ⟨allOff_allOff _ _ _, fun h => absurd (hd.symm.trans h) Bool.false_ne_true, fun h => absurd h ht,
      fun h => absurd (.inl rfl) (hc h), fun _ => ⟨rfl, rfl⟩⟩

/-- The state in which the monitor takes an assertion: the input and the kept level have changed (R141). -/
def levelTaken (s : State) (c : Chan) : State :=
  { s with prot := { s.prot with pins := s.prot.pins.set c true, levels := s.prot.levels.set c true } }

theorem exec_faultInputAssertion_taken {c : Chan} {s : State} (hr : s.clockRuns = true) (hl : s.prot.levels.get c = false) :
    exec (.faultInputAssertion c) s = .next ((levelTaken s c).faultAsserted c).settle := by
  simp only [exec, execFaultInputAssertion, hr, hl, Bool.not_false, Bool.and_self, if_true]
  rfl

theorem exec_faultInputRelease_taken {c : Chan} {s : State} (hr : s.clockRuns = true) :
    exec (.faultInputRelease c) s =
      .next (({ s with
        prot := { s.prot with pins := s.prot.pins.set c false, levels := s.prot.levels.set c false } } : State).settle) :=
  if_pos hr

/-- Settles O57: an assertion taken is `faultAsserted_asserted` of its channel, and a release writes the level. -/
theorem faultInputTurnsTheGatesOff : Obligations.FaultInputTurnsTheGatesOff := by
  refine ⟨fun c s hr hl => ?_, fun c s => exec_faultInputRelease_taken⟩
  obtain ⟨off, driving, tripped, calibrating, idle⟩ := faultAsserted_asserted (levelTaken s c) c
  refine ⟨_, exec_faultInputAssertion_taken hr hl, ?level, fun x hx => ?others, ?channel⟩
  case level =>
    rw [State.settle_prot, faultAsserted_prot]
    exact PerChan.get_set_same _ _ _
  case others =>
    rw [State.chan_settle]
    exact chan_faultAsserted_other _ hx
  case channel =>
    rw [State.chan_settle]
    refine ⟨off, driving, fun hs hsafe => ?_, calibrating, idle⟩
    obtain ⟨hstate, hopen⟩ := tripped hs
    obtain ⟨safe, hsafe⟩ := Option.isSome_iff_exists.1 hsafe
    exact ⟨hstate, hopen.trans (congrArg (Option.map _) hsafe)⟩

end Sys2Proof.SafeStates

/-!
Host supervision (ch.9): no channel drives its gates or calibrates while the device is LOCKED or QUIET (R157), what LOCKED refuses, the
slow step, and the requests RECOVER, SUPERVISE and HEARTBEAT.
-/

namespace Sys2Proof.Supervising

open Sys2Proof Sys2Proof.Machine Sys2Proof.Motor Sys2Proof.Scheduling

/-! ### Channels at rest -/

/-- A channel in this state neither drives its gates nor calibrates. -/
def AtRest (x : ChanState) : Prop := x.driving = false ∧ x ≠ .calibrating

def AllAtRest (s : State) : Prop := ∀ c, AtRest (s.chan c).state

theorem atRest_stopped : AtRest .stopped := ⟨rfl, by decide⟩

theorem atRest_tripped : AtRest .tripped := ⟨rfl, by decide⟩

theorem atRest_of_idle {x : ChanState} (h : x.idle = true) : AtRest x := by
  cases x <;> first | exact ⟨rfl, by decide⟩ | cases h

theorem not_atRest_of_running {x : ChanState} (h : x.running = true) : ¬AtRest x := fun hr =>
  Bool.false_ne_true (hr.1.symm.trans ((driving_iff x).2 (.inl h)))

/-! ### What leaves the device state and the rest of the channels -/

/-- The device state stays, and no channel leaves its rest. -/
structure Calm (s t : State) : Prop where
  dev : t.tb.dev = s.tb.dev
  rest : AllAtRest s → AllAtRest t

theorem Calm.refl (s : State) : Calm s s := ⟨rfl, id⟩

theorem Calm.trans {s t u : State} (h : Calm s t) (h' : Calm t u) : Calm s u := ⟨h'.dev.trans h.dev, h'.rest ∘ h.rest⟩

theorem calm_ite {p : Prop} [Decidable p] {s a b : State} (ha : Calm s a) (hb : Calm s b) : Calm s (if p then a else b) := by
  split_ifs
  · exact ha
  · exact hb

theorem calm_foldl {α : Type} {f : State → α → State} (hf : ∀ s a, Calm s (f s a)) (l : List α) (s : State) :
    Calm s (l.foldl f s) := by
  induction l generalizing s with
  | nil => exact .refl s
  | cons a l ih => exact (hf s a).trans (ih _)

/-- Bookkeeping changes no channel state. -/
theorem calm_of_same {s t : State} (h : SameAll s t) (hd : t.tb.dev = s.tb.dev) : Calm s t := by
  refine ⟨hd, fun hs c => ?_⟩
  rw [(h c).state]
  exact hs c

theorem calm_of_ch {s t : State} (h : t.ch = s.ch) (hd : t.tb.dev = s.tb.dev) : Calm s t := calm_of_same (sameAll_of_ch h) hd

/-- Where one channel is rewritten and the others stay, that channel's state decides. -/
theorem calm_of_one {s t : State} {c : Chan} (hd : t.tb.dev = s.tb.dev) (hc : AtRest (s.chan c).state → AtRest (t.chan c).state)
    (ho : ∀ x, x ≠ c → t.chan x = s.chan x) : Calm s t := by
  refine ⟨hd, fun hs x => ?_⟩
  by_cases hx : x = c
  · exact hx ▸ hc (hs c)
  · rw [ho x hx]
    exact hs x

/-- A running channel may do what it likes with the channels. -/
theorem calm_of_running {s t : State} {c : Chan} (h : (s.chan c).state.running = true) (hd : t.tb.dev = s.tb.dev) : Calm s t :=
  ⟨hd, fun hs => absurd (hs c) (not_atRest_of_running h)⟩

/-- An update of a channel that leaves its state. -/
theorem calm_modCh {s : State} {c : Chan} {f : Channel → Channel} (h : (f (s.chan c)).state = (s.chan c).state) :
    Calm s (s.modCh c f) := by
  refine calm_of_one rfl (fun hr => ?_) fun x hx => State.chan_modCh_other _ _ hx
  rw [State.chan_modCh_same, h]
  exact hr

theorem calm_modSq (s : State) (c : Chan) (f : StepSeq → StepSeq) : Calm s (s.modSq c f) := calm_modCh rfl

theorem calm_setCompare (s : State) (c : Chan) (due : Time) (kind : CompareKind) : Calm s (s.setCompare c due kind) :=
  calm_modSq s c _

theorem calm_modRb (s : State) (c : Chan) (f : Rebuilder → Rebuilder) : Calm s (s.modRb c f) := calm_modCh rfl

theorem calm_modLink (s : State) (f : Link → Link) : Calm s (s.modLink f) := calm_of_ch rfl rfl

theorem calm_modSched (s : State) (f : Scheduler → Scheduler) : Calm s (s.modSched f) := calm_of_ch rfl rfl

theorem calm_modProt (s : State) (f : Protection → Protection) : Calm s (s.modProt f) := calm_of_ch rfl rfl

theorem calm_modSup (s : State) (f : Supervision → Supervision) : Calm s (s.modSup f) := calm_of_ch rfl rfl

theorem Calm.queueEvent {s t : State} (h : Calm s t) (code : EventCode) (c : Option Chan) (detail : Nat) :
    Calm s (t.queueEvent code c detail) :=
  h.trans (calm_modLink t _)

theorem calm_settle (s : State) : Calm s s.settle := calm_of_same (sameAll_settle s) (by rw [State.settle_tb])

theorem calm_elapse (s : State) (n : Nat) : Calm s (s.elapse n) := calm_of_same (sameAll_elapse s n) (by rw [State.elapse_tb])

theorem calm_waitUntil (s : State) (t : Time) : Calm s (s.waitUntil t) := calm_ite (calm_elapse s _) (.refl s)

/-! The ends of a run and the trip causes. -/

theorem calm_toStopped (s : State) (c : Chan) : Calm s (s.toStopped c) := by
  refine calm_of_one rfl (fun _ => ?_) fun x hx => s.chan_toStopped_other hx
  rw [State.chan_toStopped_same]
  exact atRest_stopped

theorem calm_calFailed (s : State) (c : Chan) (f : CalFailure) : Calm s (s.calFailed c f) :=
  (calm_toStopped s c).queueEvent _ _ _

theorem calm_reachCause (s : State) (c : Chan) (k : TripCause) : Calm s (s.reachCause c k) := by
  rcases s.reachCause_cases c k with ⟨_, h⟩ | ⟨_, h⟩ | ⟨_, _, h⟩ | ⟨_, _, _, h⟩ <;> rw [h]
  · refine calm_of_one rfl (fun _ => ?_) fun x hx => s.chan_enterTripped_other k hx
    rw [State.chan_enterTripped_same]
    exact atRest_tripped
  · exact (calm_modCh rfl).queueEvent _ _ _
  · exact (calm_calFailed s c _).queueEvent _ _ _
  · exact (Calm.refl s).queueEvent _ _ _

theorem calm_sendCause (s : State) (k : TripCause) (who : ChanState → Bool) : Calm s (s.sendCause k who) :=
  calm_foldl (fun a c => calm_ite (calm_reachCause a c k) (.refl a)) _ _

theorem calm_faultAsserted (s : State) (c : Chan) : Calm s (s.faultAsserted c) :=
  (Calm.trans (t := s.modGates c _) (calm_modCh rfl) (calm_modCh rfl)).trans (calm_reachCause _ c _)

theorem calm_sampleFaults (s : State) : Calm s s.sampleFaults :=
  (calm_modProt s fun p => { p with levels := p.pins }).trans
    (calm_foldl (f := fun a c => if a.prot.pins.get c then a.faultAsserted c else a)
      (fun a c => calm_ite (calm_faultAsserted a c) (.refl a)) _ _)

/-! The step sequencer. -/

theorem enterSegment_tb (s : State) (c : Chan) (i : Nat) (t : Time) : (s.enterSegment c i t).tb = s.tb := by
  simp only [State.enterSegment]
  split <;> rfl

theorem calm_lostSyncStep (s : State) (c : Chan) : Calm s (s.lostSyncStep c) := calm_ite (calm_reachCause s c _) (.refl s)

theorem advanceRun_tb (s : State) (c : Chan) (t : Time) (peak : Bool) : (s.advanceRun c t peak).tb = s.tb := by
  simp only [State.advanceRun]
  split_ifs
  · rfl
  · rw [enterSegment_tb]; rfl
  · rw [enterSegment_tb]; rfl
  · rfl

theorem calm_closedCommutation (s : State) (c : Chan) (t : Time) (peak : Bool) (kind : CompareKind) :
    Calm s (s.closedCommutation c t peak kind) := by
  have commutated : Calm s (s.commutate c t peak) := by
    unfold State.commutate
    exact (calm_modSched s _).trans (calm_modCh rfl)
  have compared := commutated.trans (calm_setCompare _ c (addTicks t ((s.chan c).sq.t60 * (s.chan c).sq.p)) .blind)
  simp only [State.closedCommutation]
  exact calm_ite (((compared.trans (calm_modSq _ _ _)).queueEvent _ _ _).trans (calm_lostSyncStep _ c)) compared

/-- Only a running channel applies a compare. -/
theorem calm_applyCompare (s : State) (c : Chan) (t : Time) (peak : Bool) : Calm s (s.applyCompare c t peak) := by
  simp only [State.applyCompare]
  split
  · exact .refl s
  · refine calm_ite ?_ (.refl s)
    split
    next h => exact calm_of_running (c := c) (by rw [h]; rfl) (by rw [advanceRun_tb])
    next h => exact calm_of_running (c := c) (by rw [h]; rfl) (by rw [advanceRun_tb])
    next => exact calm_closedCommutation s c t peak _
    next => exact .refl s

theorem rampCrossing_tb (s : State) (c : Chan) (tzc : Time) (early : Bool) : (s.rampCrossing c tzc early).tb = s.tb := by
  rcases SixStep.rampCrossing_cases s c tzc early with ⟨n, h⟩ | ⟨p, t60, h⟩ <;> rw [h] <;> rfl

/-- Only a running channel looks at a sense result. -/
theorem calm_senseResult (s : State) (c : Chan) (seq : Seq) (raw : Nat) (start : Time) (input floatInput : Nat) :
    Calm s (s.senseResult c seq raw start input floatInput) := by
  have classified : ∀ d, Calm s (s.classify c start d) := by
    intro d
    simp only [State.classify]
    split_ifs with _ hr
    · exact calm_of_running (c := c) (by rw [hr]; rfl) (by rw [rampCrossing_tb])
    · rw [SixStep.closedCrossing_eq]
      exact calm_modSq s c _
    · exact calm_modSq s c _
  simp only [State.senseResult]
  refine calm_ite ?_ (.refl s)
  split
  · exact .refl s
  · exact calm_ite (calm_modSq s c _) (classified _)

/-! The monitor. -/

theorem calm_auxResult (s : State) (a : AuxSource) (raw merged : Nat) : Calm s (s.auxResult a raw merged) := by
  have bus : ∀ u : State, Calm u (u.examineBus raw) := by
    intro u
    simp only [State.examineBus]
    split
    · exact calm_modProt u _
    · exact (calm_modProt u _).trans (calm_sendCause _ _ _)
    · exact (calm_modProt u _).trans (calm_sendCause _ _ _)
  have warned : ∀ (p : Prop) [Decidable p] (u : State), Calm u (if p then u.queueEvent .tempWarn none raw else u) :=
    fun _ _ u => calm_ite ((Calm.refl u).queueEvent _ _ _) (.refl u)
  have temp : ∀ u : State, Calm u (u.examineTemp raw) := by
    intro u
    simp only [State.examineTemp]
    exact calm_ite (((calm_modProt u _).trans (warned _ _)).trans (calm_sendCause _ _ _)) ((calm_modProt u _).trans (warned _ _))
  have set := calm_modProt s (·.setLatest a { raw := raw, merged := merged, age := 0 })
  cases a with
  | bus => exact set.trans (bus _)
  | temp => exact set.trans (temp _)
  | spare1 => exact set
  | spare2 => exact set

theorem calm_busStaleStep (s : State) : Calm s s.busStaleStep :=
  calm_ite ((calm_modProt s _).queueEvent _ _ _) (.refl s)

theorem calm_masterWork (s : State) : Calm s s.masterWork := by
  have counted : ∀ u : State, Calm u u.staleCountStep := fun u =>
    calm_ite ((calm_modProt u _).trans (calm_busStaleStep _)) (calm_modProt u _)
  exact Calm.trans (t := (({ s with tb := s.tb.takeMaster } : State).modSched _).modProt _) (calm_of_ch rfl rfl) (counted _)

/-! The period of a channel. -/

theorem calm_limitStep (s : State) (c : Chan) (n : Nat) : Calm s (s.limitStep c n) := calm_ite (calm_reachCause s c _) (.refl s)

theorem calm_emitReport (s : State) (c : Chan) (w : WorkRecord) : Calm s (s.emitReport c w) := calm_of_same (sameAll_emitReport s c w) rfl

theorem calm_closePeriod (s : State) (c : Chan) : Calm s (s.closePeriod c) := by
  have reported : ∀ (u : State) w, Calm u (u.reportStep c w) := fun u w =>
    calm_ite (calm_modRb u c _) (calm_ite (calm_emitReport u c w) (calm_modRb u c _))
  unfold State.closePeriod
  split
  · exact .refl s
  · refine (Calm.trans ?_ (reported _ _)).trans (calm_limitStep _ c _)
    unfold State.formStep
    exact calm_modRb s c _

theorem insertRequest_tb (s : State) (c : Chan) (t : Time) (seq : Seq) (r : PlanRequest) :
    (s.insertRequest c t seq r).tb = s.tb := by
  rcases insertRequest_cases s c t seq r with h | ⟨_, _, _, h⟩
  · rw [h]
  · rw [h]
    rfl

theorem calm_insertRequests (s : State) (c : Chan) (t : Time) (p : Plan) : Calm s (s.insertRequests c t p) :=
  calm_foldl (f := fun a r => a.insertRequest c t p.seq r)
    (fun a r => calm_of_same (sameAll_insertRequest a c t p.seq r) (by rw [insertRequest_tb])) _ _

/-- The plan handover and the next plan of a channel (R32). -/
theorem calm_planTurn (s : State) (c : Chan) (t : Time) (m : Seq) : Calm s ((s.planCurrent c t).computePlan c m) := by
  have run : ∀ u : State, Calm u (u.runBegins c t) := by
    intro u
    simp only [State.runBegins]
    split
    · exact calm_setCompare u c _ _
    · exact (calm_modSq u c _).trans (calm_setCompare _ c _ _)
  unfold State.computePlan
  refine Calm.trans ?_ (calm_modCh rfl)
  simp only [State.planCurrent]
  split
  · exact calm_modCh rfl
  · have moved : ∀ {u : State} p, Calm s u → Calm s (u.insertRequests c t p) := fun p h => h.trans (calm_insertRequests _ c t p)
    exact calm_ite ((moved _ (calm_modCh rfl)).trans (run _)) (moved _ (calm_modCh rfl))

theorem calm_staleWarn (s : State) (c : Chan) : Calm s (s.staleWarn c) :=
  calm_ite ((calm_modCh rfl).queueEvent _ _ _) (.refl s)

theorem calm_staleTripStep (s : State) (c : Chan) : Calm s (s.staleTripStep c) := calm_ite (calm_reachCause s c _) (.refl s)

theorem calm_calTimeoutStep (s : State) (c : Chan) : Calm s (s.calTimeoutStep c) := calm_ite (calm_calFailed s c _) (.refl s)

theorem calm_vectorPeriod (s : State) (c : Chan) (t : Time) (m : Seq) : Calm s (s.vectorPeriod c t m) := by
  have closed := calm_closePeriod s c
  have tested := closed.trans (((calm_modCh (c := c) (same_vectorStep _).state).trans (calm_staleWarn _ c)).trans (calm_staleTripStep _ c))
  simp only [State.vectorPeriod]
  exact calm_ite (calm_ite (tested.trans (calm_planTurn _ c t m)) tested) closed

theorem calm_stepPeriod (s : State) (c : Chan) (t : Time) (m : Seq) : Calm s (s.stepPeriod c t m) := by
  have closed := calm_closePeriod s c
  simp only [State.stepPeriod]
  refine calm_ite (Calm.trans ?_ (calm_planTurn _ c t m)) closed
  exact calm_ite (closed.trans (calm_modCh (same_stepSetpoint _).state)) closed

theorem calm_calPeriod (s : State) (c : Chan) (t : Time) (m : Seq) : Calm s (s.calPeriod c t m) := by
  have counted : Calm s ((s.modCh c fun k => { k with calPeriods := min 256 (k.calPeriods + 1) }).calTimeoutStep c) :=
    (calm_modCh rfl).trans (calm_calTimeoutStep _ c)
  simp only [State.calPeriod]
  exact calm_ite (counted.trans (calm_planTurn _ c t m)) counted

theorem calm_periodWork (s : State) (c : Chan) (t : Time) (m : Seq) : Calm s (s.periodWork c t m) := by
  have begun : Calm s ((s.modCh c fun k => k.beginPeriod t m s.tb.h).modCh c Channel.liveInForce) :=
    (calm_modCh rfl).trans (calm_modCh (same_liveInForce _).state)
  simp only [State.periodWork]
  split
  case h_1 => exact begun.trans (calm_vectorPeriod _ c t m)
  case h_2 | h_3 | h_4 => exact begun.trans (calm_stepPeriod _ c t m)
  case h_5 => exact begun.trans (calm_calPeriod _ c t m)
  all_goals exact begun

/-! Conversions. -/

theorem calm_calDoneStep (s : State) (c : Chan) : Calm s (s.calDoneStep c) :=
  calm_ite (calm_ite (((calm_toStopped s c).trans (calm_modCh rfl)).queueEvent _ _ _) (calm_calFailed s c _)) (.refl s)

theorem calm_completeConversion (s : State) (v : Conversion) (raw : Nat) : Calm s (s.completeConversion v raw) := by
  have result : ∀ (u : State) c, Calm u (u.channelResult c v raw) := by
    intro u c
    simp only [State.channelResult]
    split
    · exact calm_ite ((calm_modCh rfl).trans (calm_calDoneStep _ c)) (.refl u)
    · exact (calm_modRb u c _).trans (calm_senseResult _ c _ _ _ _ _)
    · unfold State.shuntResult
      exact calm_modRb u c _
  have idle := calm_modSched s fun q => { q with conv := none }
  simp only [State.completeConversion]
  split
  · exact (idle.trans (calm_modCh rfl)).trans (result _ _)
  · exact idle.trans (calm_auxResult _ _ _ _)
  · exact idle

/-! The link. -/

theorem calm_ready (s : State) : Calm s s.ready := calm_modLink s _

theorem calm_enterGap (s : State) : Calm s s.enterGap := calm_ite (calm_ready s) (calm_modLink s _)

theorem calm_receive (s : State) (cs : List Byte) (left : Nat) : Calm s (s.receive cs left) := by
  have item : ∀ (u : State) (x : RxItem), Calm u (u.rxItem x) := by
    intro u x
    cases x with
    | error f => exact (Calm.refl u).queueEvent _ _ _
    | frame f => exact calm_ite (calm_modLink u _) ((Calm.refl u).queueEvent _ _ _)
  exact (calm_foldl item (scan 0 cs).1 s).trans (calm_of_ch rfl rfl)

theorem calm_wakeBegins (s : State) (char : Byte) : Calm s (s.wakeBegins char) := calm_ite (calm_of_ch rfl rfl) (.refl s)

/-! ### A supervision trip (R157) -/

/-- What a supervision trip makes of a channel k at the master sequence seq, by the channel's state (R39, R140). -/
structure Stood (k : Channel) (seq : Seq) (k' : Channel) : Prop where
  driving : k.state.driving = true →
    k'.state = .tripped ∧ k'.trip = some { first := .supervision, seq := seq, further := 0 }
  calibrating : k.state = .calibrating → k'.state = .stopped
  resting : k.state = .stopped ∨ k.state = .unconfigured ∨ k.state = .tripped → k'.state = k.state

theorem Stood.atRest {k k' : Channel} {seq : Seq} (h : Stood k seq k') : AtRest k'.state := by
  by_cases hd : k.state.driving = true
  · rw [(h.driving hd).1]
    exact atRest_tripped
  · cases hs : k.state
    case calibrating =>
      rw [h.calibrating hs]
      exact atRest_stopped
    case stopped | unconfigured | tripped =>
      rw [h.resting (by simp [hs]), hs]
      exact ⟨rfl, by decide⟩
    all_goals
      rw [hs] at hd
      exact absurd rfl hd

theorem reachCause_stood (s : State) (c : Chan) : Stood (s.chan c) s.masterSeqNow ((s.reachCause c .supervision).chan c) := by
  rcases s.reachCause_cases c .supervision with ⟨hd, h⟩ | ⟨ht, h⟩ | ⟨hc, _, h⟩ | ⟨hd, ht, hc, h⟩ <;> rw [h]
  · rw [State.chan_enterTripped_same]
    refine ⟨fun _ => ⟨rfl, rfl⟩, fun hs => ?_, fun hs => ?_⟩
    · rw [hs] at hd
      cases hd
    · rcases hs with hs | hs | hs <;> rw [hs] at hd <;> cases hd
  · rw [State.chan_queueEvent, State.chan_modCh_same]
    refine ⟨fun hs => ?_, fun hs => ?_, fun _ => rfl⟩
    · rw [ht] at hs
      cases hs
    · rw [ht] at hs
      cases hs
  · rw [State.chan_queueEvent, State.calFailed, State.chan_queueEvent, State.chan_toStopped_same]
    refine ⟨fun hs => ?_, fun _ => rfl, fun hs => ?_⟩
    · rw [hc] at hs
      cases hs
    · rcases hs with hs | hs | hs <;> rw [hc] at hs <;> cases hs
  · rw [State.chan_queueEvent]
    exact ⟨fun hs => absurd (hd.symm.trans hs) Bool.false_ne_true, fun hs => absurd (.inr rfl) (hc hs), fun _ => rfl⟩

/-- The cause reaches every channel but an UNCONFIGURED one, which has nothing to leave. -/
theorem causeTurn_stood (s : State) (c : Chan) :
    Stood (s.chan c) s.masterSeqNow ((causeTurn .supervision (· != .unconfigured) s c).chan c) := by
  unfold causeTurn
  split_ifs with h
  · exact reachCause_stood s c
  · have hu : (s.chan c).state = .unconfigured := by simpa using h
    refine ⟨fun hs => ?_, fun hs => ?_, fun _ => rfl⟩ <;> rw [hu] at hs <;> cases hs

theorem supervisionTrip_stood (s : State) (k : SupTrip) (c : Chan) :
    Stood (s.chan c) s.masterSeqNow ((s.supervisionTrip k).chan c) := by
  obtain ⟨u, hchan, hseq, ht⟩ :=
    exists_causeTurn (s.queueEvent .supervisionTrip none k.code) .supervision (· != .unconfigured) c
  have stood := causeTurn_stood u c
  rw [hchan, hseq, ← ht] at stood
  exact stood

/-- LOCKED begins with every channel at rest, whatever it was doing. -/
theorem supervisionTrip_allAtRest (s : State) (k : SupTrip) : AllAtRest (s.supervisionTrip k) := fun c =>
  (supervisionTrip_stood s k c).atRest

/-! ### What keeps the promise of R157 -/

/-- From s to t the promise is kept: no channel of a device that is not ACTIVE runs. -/
def Restrains (s t : State) : Prop := s.restrained → t.restrained

theorem Calm.restrains {s t : State} (h : Calm s t) : Restrains s t := fun hs ht => h.rest (hs (h.dev ▸ ht))

theorem Restrains.trans {s t u : State} (h : Restrains s t) (h' : Restrains t u) : Restrains s u := h' ∘ h

theorem restrains_ite {p : Prop} [Decidable p] {s a b : State} (ha : Restrains s a) (hb : Restrains s b) :
    Restrains s (if p then a else b) := by
  split_ifs
  · exact ha
  · exact hb

theorem restrains_of_allAtRest {s t : State} (h : AllAtRest t) : Restrains s t := fun _ _ => h

theorem restrains_of_active {s t : State} (h : t.tb.dev = .active) : Restrains s t := fun _ ht => absurd h ht

theorem restrains_supervisionTrip (s u : State) (k : SupTrip) : Restrains s (u.supervisionTrip k) :=
  restrains_of_allAtRest (supervisionTrip_allAtRest u k)

theorem restrains_expiryStep (s : State) : Restrains s s.expiryStep :=
  restrains_ite (restrains_ite (((Calm.refl s).queueEvent _ _ _).trans (calm_modSup _ _)).restrains (restrains_supervisionTrip s s _))
    (Calm.refl s).restrains

theorem restrains_heartbeatStep (s : State) : Restrains s s.heartbeatStep := by
  have emptied := calm_modSup s fun p => { p with heartbeat := none }
  simp only [State.heartbeatStep]
  split
  · exact (Calm.refl s).restrains
  · refine restrains_ite (restrains_supervisionTrip s _ _) ?_
    split
    · exact restrains_ite (emptied.trans (calm_modSup _ _)).restrains (emptied.queueEvent _ _ _).restrains
    · exact (emptied.trans (calm_modSup _ _)).restrains

theorem restrains_slowStep (s : State) : Restrains s s.slowStep :=
  ((calm_modSup s _).restrains.trans (restrains_heartbeatStep _)).trans (restrains_expiryStep _)

/-- QUIET is entered only with every channel idle (R10). -/
theorem restrains_quietEntryNow (s : State) : Restrains s s.quietEntryNow := by
  rcases s.quietEntryNow_cases with ⟨_, _, hidle, _⟩ | ⟨_, h⟩
  · refine restrains_of_allAtRest fun c => ?_
    rw [(sameAll_quietEntryNow s c).state]
    exact atRest_of_idle (List.all_eq_true.1 hidle c (by cases c <;> decide))
  · rw [h]
    exact (calm_of_ch rfl rfl).restrains

theorem ChannelsReset.allAtRest {t : State} (h : ChannelsReset t) : AllAtRest t := fun c => by
  rw [h c]
  exact ⟨rfl, by decide⟩

theorem endStartUp_active (s : State) : s.endStartUp.tb.dev = .active := (calm_sampleFaults _).dev

theorem transmitAgain_tb (s : State) : s.transmitAgain.tb = s.tb := by
  unfold State.transmitAgain
  split <;> rfl

theorem wakeNow_active (s : State) : s.wakeNow.tb.dev = .active := by
  unfold State.wakeNow
  refine (calm_sampleFaults _).dev.trans ?_
  change (State.transmitAgain _).tb.dev = _
  rw [transmitAgain_tb]

/-! ### The device state after an owner -/

theorem onChannel_dev {n : Nat} {owner : Chan → State → State × Answer} {s : State}
    (h : ∀ c, (owner c s).1.tb.dev = s.tb.dev) : (onChannel n owner s).1.tb.dev = s.tb.dev := by
  unfold onChannel
  split
  · rfl
  · exact h _

theorem ownSetLink_dev (f : Nat × Nat) (s : State) : (ownSetLink f s).1.tb.dev = s.tb.dev := by
  unfold ownSetLink
  split
  · rfl
  · split_ifs <;> rfl

theorem ownSleep_dev (s : State) : (ownSleep () s).1.tb.dev = s.tb.dev := by
  unfold ownSleep
  split_ifs <;> rfl

theorem ownSupervise_dev (f : Nat × Nat) (s : State) : (ownSupervise f s).1.tb.dev = s.tb.dev := by
  unfold ownSupervise
  split_ifs <;> rfl

theorem ownHeartbeat_dev (n : Nat) (s : State) : (ownHeartbeat n s).1.tb.dev = s.tb.dev := by
  unfold ownHeartbeat
  split_ifs <;> rfl

theorem ownCarrier_dev (f : Nat × Nat) (s : State) : (ownCarrier f s).1.tb.dev = s.tb.dev := by
  unfold ownCarrier
  split_ifs
  case neg =>
    split <;> rfl
  all_goals rfl

theorem ownConverter_dev (f : Levels) (s : State) : (ownConverter f s).1.tb.dev = s.tb.dev := by
  unfold ownConverter
  split_ifs <;> rfl

theorem ownAuxPlan_dev (f : Nat × List AuxFields) (s : State) : (ownAuxPlan f s).1.tb.dev = s.tb.dev := by
  unfold ownAuxPlan
  split_ifs
  · rfl
  · split <;> rfl

theorem ownLimits_dev (f : LimitFields) (s : State) : (ownLimits f s).1.tb.dev = s.tb.dev := by
  unfold ownLimits
  split_ifs <;> rfl

theorem ownSetup_dev (f : Nat × List (Nat × Nat)) (s : State) : (ownSetup f s).1.tb.dev = s.tb.dev := by
  refine onChannel_dev fun c => ?_
  split <;> rfl

theorem activateIdle_dev (s : State) (c : Chan) : (s.activateIdle c).tb.dev = s.tb.dev := by
  simp only [State.activateIdle]
  split_ifs <;> rfl

theorem ownActivate_dev (n : Nat) (s : State) : (ownActivate n s).1.tb.dev = s.tb.dev := by
  refine onChannel_dev fun c => ?_
  simp only
  split
  · rfl
  · split
    · rfl
    · split_ifs
      · rfl
      · rfl
      · exact activateIdle_dev s c

theorem ownProfile_dev (f : Nat × Nat × List SegmentFields) (s : State) : (ownProfile f s).1.tb.dev = s.tb.dev := by
  refine onChannel_dev fun c => ?_
  simp only
  split_ifs
  · rfl
  · rfl
  · split <;> rfl

theorem ownCalibrate_dev (n : Nat) (s : State) : (ownCalibrate n s).1.tb.dev = s.tb.dev := by
  refine onChannel_dev fun c => ?_
  split_ifs <;> rfl

theorem ownStart_dev (f : Nat × Option StepFields) (s : State) : (ownStart f s).1.tb.dev = s.tb.dev := by
  refine onChannel_dev fun c => ?_
  simp only
  split
  · rfl
  · split
    · rfl
    · rfl
    · split_ifs <;> rfl
    · split_ifs
      · rfl
      · split <;> rfl

theorem ownStop_dev (f : Nat × Nat) (s : State) : (ownStop f s).1.tb.dev = s.tb.dev := by
  refine onChannel_dev fun c => ?_
  split
  · unfold State.stopCoast
    split <;> rfl
  · unfold State.stopBrake
    split <;> rfl
  · rfl

theorem ownVectorSet_dev (f : VectorFields) (s : State) : (ownVectorSet f s).1.tb.dev = s.tb.dev := by
  refine onChannel_dev fun c => ?_
  simp only
  split_ifs <;> rfl

theorem ownStepSet_dev (f : StepSetFields) (s : State) : (ownStepSet f s).1.tb.dev = s.tb.dev := by
  refine onChannel_dev fun c => ?_
  simp only
  split_ifs <;> rfl

theorem ownClearTrip_dev (n : Nat) (s : State) : (ownClearTrip n s).1.tb.dev = s.tb.dev := by
  refine onChannel_dev fun c => ?_
  split_ifs <;> rfl

/-! The two owners that LOCKED lets through and that do something. -/

theorem restrains_ownStatus (f : Nat × Nat) (s : State) : Restrains s (ownStatus f s).1 := by
  refine Calm.restrains (calm_of_ch ?ch ?dev) <;> simp only [ownStatus]
  all_goals
    repeat' split
    all_goals rfl

theorem restrains_ownRecover (s : State) : Restrains s (ownRecover () s).1 := by
  unfold ownRecover
  split_ifs
  · exact restrains_of_active rfl
  · exact (Calm.refl s).restrains

/-! ### Every command -/

/-- What a command answers keeps the promise. -/
def RestrainsTo (s : State) (o : Host.Outcome State Fault Refusal) : Prop := ∀ t, o = .next t → Restrains s t

theorem restrainsTo_next (s : State) : RestrainsTo s (.next s) := by
  intro t ht
  cases ht
  exact id

theorem restrainsTo_done {s u : State} (h : Restrains s u) : RestrainsTo s (done u) := by
  intro t ht
  cases ht
  exact h.trans (calm_settle u).restrains

theorem restrainsTo_calm {s u : State} (h : Calm s u) : RestrainsTo s (done u) := restrainsTo_done h.restrains

theorem restrainsTo_ite {p : Prop} [Decidable p] {s : State} {a b : Host.Outcome State Fault Refusal} (ha : RestrainsTo s a)
    (hb : RestrainsTo s b) : RestrainsTo s (if p then a else b) := by
  split_ifs
  · exact ha
  · exact hb

theorem restrainsTo_reset {s u : State} (h : u.ch = ⟨.reset, .reset, .reset⟩) : RestrainsTo s (done u) := fun _ ht =>
  restrains_of_allAtRest (ChannelsReset.allAtRest (channelsReset_of_done h ht))

theorem calm_replied (s : State) (type tag : Byte) (a : Answer) : Calm s (s.replied type tag a) :=
  (calm_modLink s _).trans (calm_settle _)

/-- A request that LOCKED stops reaches its owner in an ACTIVE device alone: none is taken in QUIET (R11, R158). -/
theorem active_of_taken {s : State} (hc : s.canTake = true) (hl : s.tb.dev ≠ .locked) : s.tb.dev = .active := by
  simp only [State.canTake, State.clockRuns, Bool.and_eq_true, bne_iff_ne] at hc
  obtain ⟨⟨_, hq⟩, _⟩ := hc
  cases hd : s.tb.dev
  · rfl
  · exact absurd hd hq
  · exact absurd hd hl

theorem restrainsTo_takeRequest {α : Type} {type tag : Byte} {pl : Bool} {fields : Option α} {owner : α → State → State × Answer}
    {s : State} (h : ∀ a, s.canTake = true → (s.tb.dev ≠ .locked ∨ pl = true) → Restrains s (owner a s).1) :
    RestrainsTo s (takeRequest type tag pl fields owner s) := by
  intro t ht
  rcases takeRequest_cases type tag pl fields owner s with
      ⟨_, h'⟩ | ⟨_, _, h'⟩ | ⟨a, _, _, _, _, h'⟩ | ⟨a, hc, _, hl, h'⟩ <;>
    rw [h'] at ht <;> cases ht
  · exact id
  · exact (calm_replied s _ _ _).restrains
  · exact (calm_replied s _ _ _).restrains
  · exact (h a hc hl).trans (calm_replied _ _ _ _).restrains

theorem restrainsTo_passed {α : Type} {type tag : Byte} {fields : Option α} {owner : α → State → State × Answer} {s : State}
    (h : ∀ a, Restrains s (owner a s).1) : RestrainsTo s (takeRequest type tag true fields owner s) :=
  restrainsTo_takeRequest fun a _ _ => h a

theorem restrainsTo_request {α : Type} {type tag : Byte} {fields : Option α} {owner : α → State → State × Answer} {s : State}
    (h : ∀ a, (owner a s).1.tb.dev = s.tb.dev) : RestrainsTo s (takeRequest type tag false fields owner s) :=
  restrainsTo_takeRequest fun a hc hl =>
    restrains_of_active ((h a).trans (active_of_taken hc (hl.resolve_right Bool.false_ne_true)))

/-! The period events and the examinations. -/

theorem restrainsTo_execMasterPeriodStart (s : State) : RestrainsTo s (execMasterPeriodStart s) :=
  restrainsTo_ite (restrainsTo_calm ((calm_waitUntil s _).trans (calm_masterWork _))) (restrainsTo_next s)

theorem restrainsTo_execChannelPeriodStart (c : Chan) (s : State) : RestrainsTo s (execChannelPeriodStart c s) := by
  unfold execChannelPeriodStart
  split
  · exact restrainsTo_calm ((calm_waitUntil s _).trans (calm_periodWork _ c _ _))
  · exact restrainsTo_next s

theorem restrainsTo_execPeriodReport (c : Chan) (s : State) : RestrainsTo s (execPeriodReport c s) := by
  simp only [execPeriodReport]
  split
  · exact restrainsTo_ite (restrainsTo_calm (calm_emitReport s c _)) (restrainsTo_next s)
  · exact restrainsTo_next s

/-! The events of a channel. -/

theorem restrainsTo_execHalfPeriodPoint (c : Chan) (s : State) : RestrainsTo s (execHalfPeriodPoint c s) := by
  unfold execHalfPeriodPoint
  split
  · exact restrainsTo_calm (((calm_waitUntil s _).trans (calm_modCh rfl)).trans (calm_applyCompare _ c _ _))
  · exact restrainsTo_next s

theorem restrainsTo_execCommutationDue (c : Chan) (s : State) : RestrainsTo s (execCommutationDue c s) := by
  unfold execCommutationDue
  split
  · exact restrainsTo_ite (restrainsTo_next s) (restrainsTo_calm ((calm_waitUntil s _).trans (calm_modSq _ c _)))
  · exact restrainsTo_next s

theorem restrainsTo_execHandover (c : Chan) (tzc : Time) (s : State) : RestrainsTo s (execHandover c tzc s) := by
  simp only [execHandover]
  split_ifs with h
  · exact restrainsTo_calm
      (calm_of_running (c := c) (by rw [ramp_of_crossingPossible h.1]; rfl) (by rw [rampCrossing_tb]))
  · exact restrainsTo_next s

theorem restrainsTo_execGateEdge (c : Chan) (x : Phase) (s : State) : RestrainsTo s (execGateEdge c x s) := by
  simp only [execGateEdge]
  split
  · split
    · exact restrainsTo_next s
    · exact restrainsTo_calm ((calm_waitUntil s _).trans (calm_modCh rfl))
  · exact restrainsTo_next s

theorem restrainsTo_execPendingTurnOn (c : Chan) (x : Phase) (side : Side) (s : State) :
    RestrainsTo s (execPendingTurnOn c x side s) := by
  unfold execPendingTurnOn
  split
  · exact restrainsTo_calm ((calm_waitUntil s _).trans (calm_modCh rfl))
  · exact restrainsTo_next s

theorem restrainsTo_execFaultInputAssertion (c : Chan) (s : State) : RestrainsTo s (execFaultInputAssertion c s) := by
  have pinned := calm_modProt s fun p => { p with pins := p.pins.set c true }
  exact restrainsTo_ite (restrainsTo_calm ((pinned.trans (calm_modProt _ _)).trans (calm_faultAsserted _ c))) (restrainsTo_calm pinned)

theorem restrainsTo_execFaultInputRelease (c : Chan) (s : State) : RestrainsTo s (execFaultInputRelease c s) := by
  have pinned := calm_modProt s fun p => { p with pins := p.pins.set c false }
  exact restrainsTo_ite (restrainsTo_calm (pinned.trans (calm_modProt _ _))) (restrainsTo_calm pinned)

/-! The converter's events. -/

theorem restrainsTo_execConversionStart (s : State) : RestrainsTo s (execConversionStart s) := by
  have waited : ∀ (b : Bool) (t : Time), Calm s (if b then s else s.waitUntil t) := fun b t =>
    calm_ite (.refl s) (calm_waitUntil s t)
  simp only [execConversionStart]
  split
  · split
    · exact restrainsTo_calm ((waited _ _).trans (calm_modSched _ _))
    · exact restrainsTo_next s
  · exact restrainsTo_next s

theorem restrainsTo_execConversionComplete (raw : BitVec 12) (s : State) : RestrainsTo s (execConversionComplete raw s) := by
  unfold execConversionComplete
  split
  · exact restrainsTo_calm ((calm_elapse s _).trans (calm_completeConversion _ _ _))
  · exact restrainsTo_next s

theorem restrainsTo_execLate (slot : Nat) (s : State) : RestrainsTo s (execLate slot s) := by
  have removed : ∀ (u : State) c e, Calm u (u.removeLate c e) := by
    intro u c e
    unfold State.removeLate
    exact ((calm_modSched u _).trans (calm_modCh rfl)).trans (calm_modRb _ c _)
  unfold execLate
  split
  · split
    · exact restrainsTo_calm ((calm_waitUntil s _).trans (removed _ _ _))
    · exact restrainsTo_next s
  · exact restrainsTo_next s

/-! The events of the device and the link. -/

theorem restrains_quietEntered (s : State) : Restrains s s.quietEntryNow.enterGap :=
  (restrains_quietEntryNow s).trans (calm_enterGap _).restrains

theorem calm_linkChanged (s : State) (r : Rate) (gap : Nat) : Calm s (s.linkInForce r gap).enterGap :=
  Calm.trans (calm_modLink s _) (calm_enterGap (s.linkInForce r gap))

theorem restrainsTo_execMessageReset (s : State) : RestrainsTo s (execMessageReset s) := by
  unfold execMessageReset
  split
  · exact restrainsTo_reset rfl
  · exact restrainsTo_next s

theorem restrainsTo_execFrameSent (s : State) : RestrainsTo s (execFrameSent s) := by
  unfold execFrameSent
  split
  next e left _ =>
    have elapsed := calm_elapse s left
    cases e with
    | nothing => exact restrainsTo_calm (elapsed.trans (calm_enterGap _))
    | messageReset => exact restrainsTo_reset rfl
    | quietEntry => exact restrainsTo_done (elapsed.restrains.trans (restrains_quietEntered _))
    | setLink r gap => exact restrainsTo_calm (elapsed.trans (calm_linkChanged _ r gap))
  next => exact restrainsTo_next s

theorem restrainsTo_execSetLinkInForce (s : State) : RestrainsTo s (execSetLinkInForce s) := by
  unfold execSetLinkInForce
  split
  · exact restrainsTo_calm ((calm_elapse s _).trans (calm_linkChanged _ _ _))
  · exact restrainsTo_next s

theorem restrainsTo_execQuietEntry (s : State) : RestrainsTo s (execQuietEntry s) := by
  unfold execQuietEntry
  split
  · exact restrainsTo_done ((calm_elapse s _).restrains.trans (restrains_quietEntered _))
  · exact restrainsTo_next s

theorem restrainsTo_execGapEnd (s : State) : RestrainsTo s (execGapEnd s) := by
  unfold execGapEnd
  split
  · exact restrainsTo_calm ((calm_elapse s _).trans (calm_ready _))
  · exact restrainsTo_next s

theorem restrainsTo_execStartUpEnd (s : State) : RestrainsTo s (execStartUpEnd s) := by
  unfold execStartUpEnd
  split
  · exact restrainsTo_done (restrains_of_active (endStartUp_active _))
  · exact restrainsTo_next s

theorem restrainsTo_execWakeComplete (s : State) : RestrainsTo s (execWakeComplete s) := by
  unfold execWakeComplete
  split
  · exact restrainsTo_done (restrains_of_active (wakeNow_active _))
  · exact restrainsTo_next s

theorem restrainsTo_execResetRelease (s : State) : RestrainsTo s (execResetRelease s) :=
  restrainsTo_ite (restrainsTo_calm (calm_of_ch rfl rfl)) (restrainsTo_next s)

theorem restrainsTo_execSlowStep (s : State) : RestrainsTo s (execSlowStep s) :=
  restrainsTo_ite (restrainsTo_done (restrains_slowStep s)) (restrainsTo_next s)

theorem restrainsTo_execWindowExpiry (s : State) : RestrainsTo s (execWindowExpiry s) :=
  restrainsTo_ite (restrainsTo_done (restrains_expiryStep s)) (restrainsTo_next s)

theorem restrainsTo_execCharacterArrival (char : Byte) (fe : Bool) (s : State) :
    RestrainsTo s (execCharacterArrival char fe s) := by
  unfold execCharacterArrival
  split_ifs
  · exact restrainsTo_next s
  · exact restrainsTo_calm (((Calm.refl s).queueEvent _ _ _).trans (calm_receive _ _ _))
  · exact restrainsTo_calm ((calm_wakeBegins s char).trans (calm_receive _ _ _))
  · exact restrainsTo_next s

theorem restrainsTo_execFrameTimeout (s : State) : RestrainsTo s (execFrameTimeout s) :=
  restrainsTo_ite (restrainsTo_calm (((calm_elapse s _).queueEvent _ _ _).trans (calm_receive _ _ _))) (restrainsTo_next s)

theorem restrainsTo_execUnknownType (type tag : Byte) (p : List Byte) (s : State) : RestrainsTo s (execUnknownType type tag p s) :=
  restrainsTo_ite (restrainsTo_next s) (restrainsTo_calm (calm_modLink s _))

/-- Every command keeps the promise of R157. -/
theorem exec_restrains (i : Instr) (s : State) : RestrainsTo s (exec i s) := by
  cases i with
  | ident tag p => exact restrainsTo_passed (owner := ownIdent) fun _ => id
  | setLink tag p => exact restrainsTo_request (ownSetLink_dev · s)
  | setLinkInForce => exact restrainsTo_execSetLinkInForce s
  | reset tag p => exact restrainsTo_request (owner := ownReset) fun _ => rfl
  | messageReset => exact restrainsTo_execMessageReset s
  | sleep tag p => exact restrainsTo_request fun _ => ownSleep_dev s
  | quietEntry => exact restrainsTo_execQuietEntry s
  | deviceStatus tag p => exact restrainsTo_passed (restrains_ownStatus · s)
  | channelStatus tag p => exact restrainsTo_passed (restrains_ownStatus · s)
  | recover tag p => exact restrainsTo_passed fun _ => restrains_ownRecover s
  | supervise tag p => exact restrainsTo_request (ownSupervise_dev · s)
  | heartbeat tag p => exact restrainsTo_request (ownHeartbeat_dev · s)
  | carrier tag p => exact restrainsTo_request (ownCarrier_dev · s)
  | converter tag p => exact restrainsTo_request (ownConverter_dev · s)
  | auxPlan tag p => exact restrainsTo_request (ownAuxPlan_dev · s)
  | limits tag p => exact restrainsTo_request (ownLimits_dev · s)
  | channelSetup tag p => exact restrainsTo_request (ownSetup_dev · s)
  | activate tag p => exact restrainsTo_request (ownActivate_dev · s)
  | profile tag p => exact restrainsTo_request (ownProfile_dev · s)
  | calibrate tag p => exact restrainsTo_request (ownCalibrate_dev · s)
  | start tag p => exact restrainsTo_request (ownStart_dev · s)
  | stopCoast tag p => exact restrainsTo_request (ownStop_dev · s)
  | stopBrake tag p => exact restrainsTo_request (ownStop_dev · s)
  | vectorSet tag p => exact restrainsTo_request (ownVectorSet_dev · s)
  | stepSet tag p => exact restrainsTo_request (ownStepSet_dev · s)
  | clearTrip tag p => exact restrainsTo_request (ownClearTrip_dev · s)
  | unknownType type tag p => exact restrainsTo_execUnknownType type tag p s
  | powerOnReset v => exact restrainsTo_reset rfl
  | pinReset => exact restrainsTo_reset rfl
  | startUpEnd => exact restrainsTo_execStartUpEnd s
  | masterPeriodStart => exact restrainsTo_execMasterPeriodStart s
  | busStale => exact restrainsTo_calm (calm_busStaleStep s)
  | channelPeriodStart c => exact restrainsTo_execChannelPeriodStart c s
  | stale c => exact restrainsTo_calm (calm_staleWarn s c)
  | staleTrip c => exact restrainsTo_calm (calm_staleTripStep s c)
  | calTimeout c => exact restrainsTo_calm (calm_calTimeoutStep s c)
  | halfPeriodPoint c => exact restrainsTo_execHalfPeriodPoint c s
  | lostSync c => exact restrainsTo_calm (calm_lostSyncStep s c)
  | commutationDue c => exact restrainsTo_execCommutationDue c s
  | gateEdge c x => exact restrainsTo_execGateEdge c x s
  | pendingTurnOn c x side => exact restrainsTo_execPendingTurnOn c x side s
  | conversionStart => exact restrainsTo_execConversionStart s
  | conversionComplete raw => exact restrainsTo_execConversionComplete raw s
  | calDone c => exact restrainsTo_calm (calm_calDoneStep s c)
  | handover c tzc => exact restrainsTo_execHandover c tzc s
  | late slot => exact restrainsTo_execLate slot s
  | currentLimit c => exact restrainsTo_calm (calm_limitStep s c _)
  | periodReport c => exact restrainsTo_execPeriodReport c s
  | faultInputAssertion c => exact restrainsTo_execFaultInputAssertion c s
  | faultInputRelease c => exact restrainsTo_execFaultInputRelease c s
  | slowStep => exact restrainsTo_execSlowStep s
  | windowExpiry => exact restrainsTo_execWindowExpiry s
  | characterArrival char fe => exact restrainsTo_execCharacterArrival char fe s
  | wakeComplete => exact restrainsTo_execWakeComplete s
  | frameTimeout => exact restrainsTo_execFrameTimeout s
  | frameSent => exact restrainsTo_execFrameSent s
  | gapEnd => exact restrainsTo_execGapEnd s
  | resetRelease => exact restrainsTo_execResetRelease s

theorem calm_idle (s : State) : Calm s s.idle := by
  have raised : ∀ i b, Calm s (s.raise i b) := by
    intro i b
    exact Calm.trans (t := if b then s.modLink (fun l => { l with rxBuf := l.rxBuf.tail }) else s)
      (calm_ite (calm_modLink s _) (.refl s)) (calm_of_ch rfl rfl)
  simp only [State.idle]
  split
  · exact raised _ _
  · split
    · exact raised _ _
    · exact calm_elapse s 1

/-- Settles O8: a step is a command, which keeps the promise, or the idle step. -/
theorem noChannelRunsWhileLockedOrQuiet : Obligations.NoChannelRunsWhileLockedOrQuiet := by
  intro s t hs h
  unfold step at h
  split at h
  next i rest _ => exact exec_restrains i { s with pending := rest } t h hs
  next =>
    cases h
    exact (calm_idle s).restrains hs

/-! ### RECOVER, SUPERVISE and HEARTBEAT (R152, R153, R159) -/

/-- Settles O27, by R159's two cases: RECOVER passes LOCKED to its owner. -/
theorem recoverEndsLocked : Obligations.RecoverEndsLocked := by
  intro tag s hc
  have owner : exec (.recover tag []) s = .next ((ownRecover () s).1.replied 0x06 tag (ownRecover () s).2) := by
    simp [exec, execRecover, takeRequest, readNone, hc, done_eq, State.replied]
  rw [owner]
  unfold ownRecover
  split_ifs <;> rfl

/-- Settles O28, by R152's checks in order. -/
theorem superviseEnablesOnce : Obligations.SuperviseEnablesOnce := by
  intro tag a0 a1 b0 b1 s hs
  change takeRequest 0x07 tag false (some (u16 a0 a1, u16 b0 b1)) ownSupervise s = _
  rw [takeRequest_taken _ _ _ _ _ _ hs]
  unfold ownSupervise
  split_ifs <;> rfl

/-- Settles O29, by R153's three cases. -/
theorem heartbeatWaitsForTheSlowStep : Obligations.HeartbeatWaitsForTheSlowStep := by
  intro tag n s hs
  change takeRequest 0x08 tag false (some n.toNat) ownHeartbeat s = _
  rw [takeRequest_taken _ _ _ _ _ _ hs]
  unfold ownHeartbeat
  cases s.sup.enabled
  · rfl
  · simp only [Bool.not_true, Bool.false_eq_true, Bool.true_eq_false, if_false]
    split_ifs <;> rfl

/-! ### What a request's payload must be (Table 11-2) -/

theorem isSome_readNone (p : List Byte) : (readNone p).isSome = validLength 0x01 p.length := by
  cases p <;> rfl

theorem isSome_read1 : ∀ p : List Byte, (read1 p).isSome = validLength 0x08 p.length
  | [] | [_] => rfl
  | _ :: _ :: _ => by simp [read1, validLength]

theorem isSome_read11 : ∀ p : List Byte, (read11 p).isSome = validLength 0x02 p.length
  | [] | [_] | [_, _] => rfl
  | _ :: _ :: _ :: _ => by simp [read11, validLength]

theorem isSome_read22 : ∀ p : List Byte, (read22 p).isSome = validLength 0x07 p.length
  | [] | [_] | [_, _] | [_, _, _] | [_, _, _, _] => rfl
  | _ :: _ :: _ :: _ :: _ :: _ => by simp [read22, validLength]

theorem isSome_readLevels : ∀ p : List Byte, (readLevels p).isSome = validLength 0x11 p.length
  | [] | [_] | [_, _] | [_, _, _] => rfl
  | _ :: _ :: _ :: _ :: _ => by simp [readLevels, validLength]

theorem isSome_readLimits : ∀ p : List Byte, (readLimits p).isSome = validLength 0x13 p.length
  | [] | [_] | [_, _] | [_, _, _] | [_, _, _, _] | [_, _, _, _, _] | [_, _, _, _, _, _] | [_, _, _, _, _, _, _]
  | [_, _, _, _, _, _, _, _] => rfl
  | _ :: _ :: _ :: _ :: _ :: _ :: _ :: _ :: _ :: _ => by simp [readLimits, validLength]

theorem isSome_readStart : ∀ p : List Byte, (readStart p).isSome = validLength 0x24 p.length
  | [] | [_] | [_, _] | [_, _, _] | [_, _, _, _] | [_, _, _, _, _] => rfl
  | _ :: _ :: _ :: _ :: _ :: _ :: _ => by simp [readStart, validLength]

theorem isSome_readVectorSet : ∀ p : List Byte, (readVectorSet p).isSome = validLength 0x26 p.length
  | [] | [_] | [_, _] | [_, _, _] | [_, _, _, _] | [_, _, _, _, _] | [_, _, _, _, _, _] | [_, _, _, _, _, _, _]
  | [_, _, _, _, _, _, _, _] | [_, _, _, _, _, _, _, _, _] => rfl
  | _ :: _ :: _ :: _ :: _ :: _ :: _ :: _ :: _ :: _ :: _ => by simp [readVectorSet, validLength]

theorem isSome_readStepSet : ∀ p : List Byte, (readStepSet p).isSome = validLength 0x27 p.length
  | [] | [_] | [_, _] | [_, _, _] | [_, _, _, _] => rfl
  | _ :: _ :: _ :: _ :: _ :: _ => by simp [readStepSet, validLength]

/-! The three readers of repeated groups read a whole number of them, or nothing. -/

theorem readAuxList_cases : ∀ p : List Byte,
    (∃ l, readAuxList p = some l ∧ p.length = 4 * l.length) ∨ (readAuxList p = none ∧ ¬4 ∣ p.length)
  | [] => .inl ⟨[], rfl, rfl⟩
  | [_] | [_, _] | [_, _, _] => .inr ⟨rfl, by simp⟩
  | _ :: _ :: _ :: _ :: rest => by
    simp only [readAuxList, List.length_cons]
    rcases readAuxList_cases rest with ⟨l, hl, hn⟩ | ⟨hl, hn⟩ <;> rw [hl]
    · exact .inl ⟨_, rfl, by rw [List.length_cons]; omega⟩
    · exact .inr ⟨rfl, by omega⟩

theorem readPairs_cases : ∀ p : List Byte,
    (∃ l, readPairs p = some l ∧ p.length = 3 * l.length) ∨ (readPairs p = none ∧ ¬3 ∣ p.length)
  | [] => .inl ⟨[], rfl, rfl⟩
  | [_] | [_, _] => .inr ⟨rfl, by simp⟩
  | _ :: _ :: _ :: rest => by
    simp only [readPairs, List.length_cons]
    rcases readPairs_cases rest with ⟨l, hl, hn⟩ | ⟨hl, hn⟩ <;> rw [hl]
    · exact .inl ⟨_, rfl, by rw [List.length_cons]; omega⟩
    · exact .inr ⟨rfl, by omega⟩

theorem readSegments_cases : ∀ p : List Byte,
    (∃ l, readSegments p = some l ∧ p.length = 8 * l.length) ∨ (readSegments p = none ∧ ¬8 ∣ p.length)
  | [] => .inl ⟨[], rfl, rfl⟩
  | [_] | [_, _] | [_, _, _] | [_, _, _, _] | [_, _, _, _, _] | [_, _, _, _, _, _] | [_, _, _, _, _, _, _] => .inr ⟨rfl, by simp⟩
  | _ :: _ :: _ :: _ :: _ :: _ :: _ :: _ :: rest => by
    simp only [readSegments, List.length_cons]
    rcases readSegments_cases rest with ⟨l, hl, hn⟩ | ⟨hl, hn⟩ <;> rw [hl]
    · exact .inl ⟨_, rfl, by rw [List.length_cons]; omega⟩
    · exact .inr ⟨rfl, by omega⟩

theorem isSome_readAuxPlan (p : List Byte) : (readAuxPlan p).isSome = validLength 0x12 p.length := by
  cases p with
  | nil => rfl
  | cons st rest =>
    change _ = [5, 9, 13, 17].contains (rest.length + 1)
    simp only [readAuxPlan]
    rcases readAuxList_cases rest with ⟨l, hl, hn⟩ | ⟨hl, hn⟩ <;> rw [hl, Bool.eq_iff_iff]
    · simp [hn]; omega
    · simp; omega

theorem isSome_readSetup (p : List Byte) : (readSetup p).isSome = validLength 0x20 p.length := by
  cases p with
  | nil => rfl
  | cons c rest =>
    change _ = [4, 7, 10, 13, 16, 19, 22, 25, 28, 31, 34, 37].contains (rest.length + 1)
    simp only [readSetup]
    rcases readPairs_cases rest with ⟨l, hl, hn⟩ | ⟨hl, hn⟩ <;> rw [hl, Bool.eq_iff_iff]
    · simp [hn]; omega
    · simp; omega

theorem isSome_readProfile : ∀ p : List Byte, (readProfile p).isSome = validLength 0x22 p.length
  | [] | [_] => rfl
  | _ :: _ :: rest => by
    change _ = [10, 18, 26, 34].contains (rest.length + 2)
    simp only [readProfile]
    rcases readSegments_cases rest with ⟨l, hl, hn⟩ | ⟨hl, hn⟩ <;> rw [hl, Bool.eq_iff_iff]
    · simp [hn]; omega
    · simp; omega

/-! ### The link's checks of a request (R158, R169) -/

/-- A frame whose type names a request is taken as the link's checks say: its length is Table 11-2's, and LOCKED passes IDENT, STATUS and
RECOVER. -/
theorem exec_eq_takeRequest {i : Instr} {f : Frame} (hf : i.frame = some f) (ht : requestTypes.contains f.type = true)
    (hw : i.wf = true) :
    ∃ (α : Type) (fields : Option α) (owner : α → State → State × Answer),
      (∀ s, exec i s = takeRequest f.type f.tag (passedInLocked f.type) fields owner s) ∧
        fields.isSome = validLength f.type f.payload.length := by
  cases i <;> cases hf
  case ident tag p => exact ⟨_, _, ownIdent, fun _ => rfl, isSome_readNone p⟩
  case setLink tag p => exact ⟨_, _, ownSetLink, fun _ => rfl, isSome_read11 p⟩
  case reset tag p => exact ⟨_, _, ownReset, fun _ => rfl, isSome_readNone p⟩
  case sleep tag p => exact ⟨_, _, ownSleep, fun _ => rfl, isSome_readNone p⟩
  case deviceStatus tag p => exact ⟨_, _, ownStatus, fun _ => rfl, isSome_read11 p⟩
  case channelStatus tag p => exact ⟨_, _, ownStatus, fun _ => rfl, isSome_read11 p⟩
  case recover tag p => exact ⟨_, _, ownRecover, fun _ => rfl, isSome_readNone p⟩
  case supervise tag p => exact ⟨_, _, ownSupervise, fun _ => rfl, isSome_read22 p⟩
  case heartbeat tag p => exact ⟨_, _, ownHeartbeat, fun _ => rfl, isSome_read1 p⟩
  case carrier tag p => exact ⟨_, _, ownCarrier, fun _ => rfl, isSome_read22 p⟩
  case converter tag p => exact ⟨_, _, ownConverter, fun _ => rfl, isSome_readLevels p⟩
  case auxPlan tag p => exact ⟨_, _, ownAuxPlan, fun _ => rfl, isSome_readAuxPlan p⟩
  case limits tag p => exact ⟨_, _, ownLimits, fun _ => rfl, isSome_readLimits p⟩
  case channelSetup tag p => exact ⟨_, _, ownSetup, fun _ => rfl, isSome_readSetup p⟩
  case activate tag p => exact ⟨_, _, ownActivate, fun _ => rfl, isSome_read1 p⟩
  case profile tag p => exact ⟨_, _, ownProfile, fun _ => rfl, isSome_readProfile p⟩
  case calibrate tag p => exact ⟨_, _, ownCalibrate, fun _ => rfl, isSome_read1 p⟩
  case start tag p => exact ⟨_, _, ownStart, fun _ => rfl, isSome_readStart p⟩
  case stopCoast tag p => exact ⟨_, _, ownStop, fun _ => rfl, isSome_read11 p⟩
  case stopBrake tag p => exact ⟨_, _, ownStop, fun _ => rfl, isSome_read11 p⟩
  case vectorSet tag p => exact ⟨_, _, ownVectorSet, fun _ => rfl, isSome_readVectorSet p⟩
  case stepSet tag p => exact ⟨_, _, ownStepSet, fun _ => rfl, isSome_readStepSet p⟩
  case clearTrip tag p => exact ⟨_, _, ownClearTrip, fun _ => rfl, isSome_read1 p⟩
  case unknownType type tag p =>
    simp only [Instr.wf, Bool.and_eq_true, Bool.not_eq_true'] at hw
    rw [hw.2] at ht
    cases ht

/-- Table 11-2 gives lengths to the types that name a request alone. -/
theorem requestType_of_validLength {type : Byte} {n : Nat} (h : validLength type n = true) : requestTypes.contains type = true := by
  unfold validLength at h
  split at h
  case h_22 => cases h
  all_goals
    next ht =>
      rw [show type = BitVec.ofNat 8 type.toNat by simp, ht]
      rfl

theorem takeRequest_locked {α : Type} (type tag : Byte) {fields : Option α} (owner : α → State → State × Answer) {s : State}
    (hc : s.canTake = true) (hd : s.tb.dev = .locked) (hf : fields.isSome = true) :
    takeRequest type tag false fields owner s = .next (s.replied type tag { code := .locked }) := by
  obtain ⟨a, rfl⟩ := Option.isSome_iff_exists.1 hf
  simp [takeRequest, hc, hd, done_eq, State.replied]

/-- Settles O43: the link answers before the owner is asked. -/
theorem lockedRefusesAllButIdentStatusRecover : Obligations.LockedRefusesAllButIdentStatusRecover := by
  intro i f s hw hf hc hd hv hp
  obtain ⟨α, fields, owner, hexec, hsome⟩ := exec_eq_takeRequest hf (requestType_of_validLength hv) hw
  rw [hexec, hp]
  exact takeRequest_locked _ _ owner hc hd (hsome.trans hv)

/-! ### The slow step (R154 to R157) -/

/-- A window in the course of a slow step: what the link has been given, and the heartbeat and the count that stand. -/
def windowAt (s : State) (link : Link) (heartbeat : Option Nat) (count : Nat) : State :=
  { s with link := link, sup := { s.sup with heartbeat := heartbeat, count := count } }

/-- A device record of the present master period. -/
def deviceRecord (s : State) (code : EventCode) (detail : Nat) : EventRecord :=
  { code := code, chan := none, seq := s.masterSeqNow, repeats := 1, detail := detail }

/-- A served window begins again, and expects the count after b (R155). -/
def expectingNext (s : State) (b : Nat) : State := s.modSup fun p => { p with stage := 0, expected := some ((b + 1) % 256) }

section

variable {s : State} {l : Link} {hb : Option Nat} {n b : Nat}

/-! The evaluation of a pending heartbeat against the raised count (R155). -/

theorem heartbeatStep_none : (windowAt s l none n).heartbeatStep = windowAt s l none n := rfl

theorem heartbeatStep_early (h : n < s.sup.tc) :
    (windowAt s l (some b) n).heartbeatStep = (windowAt s l none n).supervisionTrip .early :=
  if_pos h

theorem heartbeatStep_served (h : s.sup.tc ≤ n) (he : s.sup.expected = none ∨ s.sup.expected = some b) :
    (windowAt s l (some b) n).heartbeatStep =
      windowAt (expectingNext s b) l none 0 := by
  rcases he with he | he
  · simp only [State.heartbeatStep, windowAt, if_neg (Nat.not_lt.2 h), he]
    rfl
  · simp only [State.heartbeatStep, windowAt, if_neg (Nat.not_lt.2 h), he, if_true]
    rfl

theorem heartbeatStep_wrong {e : Nat} (h : s.sup.tc ≤ n) (he : s.sup.expected = some e) (hne : e ≠ b) :
    (windowAt s l (some b) n).heartbeatStep =
      windowAt s (l.queueEvent (deviceRecord s .supervisionSequence (e * 256 + b))) none n := by
  simp only [State.heartbeatStep, windowAt, if_neg (Nat.not_lt.2 h), he, if_neg hne]
  rw [← he]
  rfl

/-! The expiry of the window (R156). -/

theorem expiryStep_stopped (h : s.sup.running = false) : s.expiryStep = s := by
  simp [State.expiryStep, h]

theorem expiryStep_within (h : n < s.sup.te) : (windowAt s l hb n).expiryStep = windowAt s l hb n := by
  simp [State.expiryStep, windowAt, Nat.not_le.2 h]

theorem expiryStep_late (hr : s.sup.running = true) (h : s.sup.te ≤ n) (hs : s.sup.stage = 0) :
    (windowAt s l hb n).expiryStep =
      (windowAt s (l.queueEvent (deviceRecord s .supervisionLate (s.sup.expected.getD 256))) hb 0).modSup fun p =>
        { p with stage := 1 } := by
  simp only [State.expiryStep, windowAt, hr, h, hs, decide_true, Bool.and_self, if_true]
  rfl

theorem expiryStep_expired (hr : s.sup.running = true) (h : s.sup.te ≤ n) (hs : s.sup.stage ≠ 0) :
    (windowAt s l hb n).expiryStep = (windowAt s l hb n).supervisionTrip .expired := by
  simp only [State.expiryStep, windowAt, hr, h, hs, decide_true, Bool.and_self, if_true, if_false]

end

/-- From s to t a supervision trip has locked the device, from a window with this link and count (R157). -/
structure LockedFrom (s t : State) (link : Link) (count detail : Nat) : Prop where
  tb : t.tb = { s.tb with dev := .locked, quietDropped := s.tb.quietPending }
  attn : t.settle.attn = s.isRunning
  sup : t.sup = { s.sup with heartbeat := none, count := count, running := false }
  link : t.link =
    s.causeRecords .supervision (fun x => decide (x ≠ .unconfigured))
      (link.queueEvent (deviceRecord s .supervisionTrip detail))
  stood : ∀ c, Stood (s.chan c) s.masterSeqNow (t.chan c)

theorem supervisionTrip_power (s : State) (k : SupTrip) : (s.supervisionTrip k).power = s.power := by
  obtain ⟨_, _, hpower, _⟩ := (s.queueEvent .supervisionTrip none k.code).sendCause_blocks .supervision (· != .unconfigured)
  exact hpower

/-- ATTN of a LOCKED device is asserted wherever the device runs (R149). -/
theorem attnLevel_locked {s : State} (h : s.tb.dev = .locked) : s.attnLevel = s.isRunning := by
  simp [State.attnLevel, h]

theorem windowAt_lockedFrom (s : State) (link : Link) (heartbeat : Option Nat) (count : Nat) (k : SupTrip) :
    LockedFrom s ((windowAt s link heartbeat count).supervisionTrip k) link count k.code := by
  obtain ⟨htb, hsup, hlink⟩ := (windowAt s link heartbeat count).supervisionTrip_blocks k
  have hpower := supervisionTrip_power (windowAt s link heartbeat count) k
  refine ⟨htb, ?attn, hsup, ?link, supervisionTrip_stood (windowAt s link heartbeat count) k⟩
  case attn =>
    have hlocked : ((windowAt s link heartbeat count).supervisionTrip k).settle.tb.dev = .locked := by
      rw [State.settle_tb, htb]
    rw [State.settle_attnRight, attnLevel_locked hlocked]
    unfold State.isRunning
    rw [State.settle_power, hpower]
    rfl
  case link =>
    rw [hlink, causeRecords_congr (s := s) rfl rfl, show (fun x : ChanState => x != .unconfigured) = _ from
      funext fun x => bne_eq_decide_ne x .unconfigured]
    rfl

/-- A slow step raises the count, evaluates the heartbeat, then the expiry. -/
theorem exec_slowStep {s : State} (hen : s.sup.enabled = true) (hrun : s.sup.running = true) (hcount : s.sup.count < 2000) :
    exec .slowStep s = .next (windowAt s s.link s.sup.heartbeat (s.sup.count + 1)).heartbeatStep.expiryStep.settle := by
  have counted : (s.modSup fun p => { p with count := min 2000 (p.count + 1) }) =
      windowAt s s.link s.sup.heartbeat (s.sup.count + 1) := by
    rw [show s.sup.count + 1 = min 2000 (s.sup.count + 1) by omega]
    rfl
  rw [← counted]
  exact if_pos (by rw [hen, hrun]; rfl)

theorem exec_windowExpiry {s : State} (hen : s.sup.enabled = true) :
    exec .windowExpiry s = .next (windowAt s s.link s.sup.heartbeat s.sup.count).expiryStep.settle :=
  if_pos hen

/-- Settles O58: `exec_slowStep` by the cases of R155 and R156. -/
theorem slowStepEvaluatesHeartbeatThenExpiry : Obligations.SlowStepEvaluatesHeartbeatThenExpiry := by
  intro s hen hrun hcount hte n record trips
  have slow := exec_slowStep hen hrun hcount
  have row := exec_windowExpiry hen
  have locked : ∀ {run : Host.Outcome State Fault Refusal} {t link count detail}, run = .next t.settle →
      LockedFrom s t link count detail → trips run link count detail := fun hr h =>
    ⟨_, hr, h.tb, h.attn, h.sup, h.link, fun c => ⟨(h.stood c).driving, (h.stood c).calibrating, (h.stood c).resting⟩⟩
  refine ⟨fun hb hn => ?within, fun b hb hn he => ?served, fun b e hb hn he hne => ?wrong, fun hb hn hs => ?late,
    fun b hb hn => ?early, fun hb hn hs => ?expired, fun hn hs => ?rowLate, fun hn hs => ?rowExpired⟩
  case within =>
    rw [hb, heartbeatStep_none, expiryStep_within hn, ← hb] at slow
    exact slow
  case served =>
    have restarted : 0 < (expectingNext s b).sup.te := Nat.lt_of_lt_of_le (by decide) hte
    rw [hb, heartbeatStep_served hn he, expiryStep_within restarted] at slow
    exact slow
  case wrong =>
    rw [hb, heartbeatStep_wrong hn he hne] at slow
    refine ⟨fun hn => ?_, fun hn hs => ?_, fun hn hs => ?_⟩
    · rw [expiryStep_within hn] at slow
      exact slow
    · rw [expiryStep_late hrun hn hs, he] at slow
      exact slow
    · rw [expiryStep_expired hrun hn hs] at slow
      exact locked slow (windowAt_lockedFrom s _ none n .expired)
  case late =>
    rw [hb, heartbeatStep_none, expiryStep_late hrun hn hs, ← hb] at slow
    exact slow
  case early =>
    have stopped : ((windowAt s s.link none n).supervisionTrip .early).sup.running = false := by
      rw [(State.supervisionTrip_blocks _ _).2.1]
    rw [hb, heartbeatStep_early hn, expiryStep_stopped stopped] at slow
    exact locked slow (windowAt_lockedFrom s s.link none n .early)
  case expired =>
    rw [hb, heartbeatStep_none, expiryStep_expired hrun hn hs] at slow
    exact locked slow (windowAt_lockedFrom s s.link none n .expired)
  case rowLate =>
    rw [expiryStep_late hrun hn hs] at row
    exact row
  case rowExpired =>
    rw [expiryStep_expired hrun hn hs] at row
    exact locked row (windowAt_lockedFrom s s.link s.sup.heartbeat s.sup.count .expired)

end Sys2Proof.Supervising

/-!
The serial link (ch.10): the receiver on the characters of a frame, the rows that frames are, what the link answers by itself, the place of
an event record, and SET_LINK.
-/

namespace Sys2Proof.SerialLink

open Sys2Proof Sys2Proof.Machine Sys2Proof.Motor Sys2Proof.Supervising

/-! ### The receiver on a frame (R163, R165, R167) -/

/-- The characters that follow the marker of a frame are examined as that frame, whatever comes behind them. -/
theorem collected_frame (type tag : Byte) {payload : List Byte} (rest : List Byte) (h : payload.length ≤ 56) :
    let body := byte payload.length :: type :: tag :: payload
    collected (body ++ crc body :: rest) = .valid { type := type, tag := tag, payload := payload } := by
  have hlen : (byte payload.length).toNat = payload.length := Nat.mod_eq_of_lt (by omega)
  simp [collected, payloadRoom, hlen, Nat.not_lt.2 h]

/-- The receiver, hunting, takes a frame whole and goes on hunting behind it. -/
theorem scan_frame (type tag : Byte) {payload : List Byte} (rest : List Byte) (h : payload.length ≤ 56) :
    scan 0 (frameChars type tag payload ++ rest) =
      (.frame { type := type, tag := tag, payload := payload } :: (scan 0 rest).1, (scan 0 rest).2) := by
  let body := byte payload.length :: type :: tag :: payload
  have hchars : frameChars type tag payload ++ rest = marker :: (body ++ crc body :: rest) := by simp [frameChars, body]
  have hskip : (body ++ crc body :: rest).drop (4 + payload.length) = rest := by
    rw [List.append_cons]
    exact List.drop_left' (by simp [body]; omega)
  rw [hchars, scan, if_pos rfl, collected_frame type tag rest h]
  simp only
  rw [scan_drop, hskip]

/-- Settles O15: nothing stands behind the frame. -/
theorem receiverReadsBackEveryFrame : Obligations.ReceiverReadsBackEveryFrame := by
  intro type tag payload h
  have hscan := scan_frame type tag [] h
  rw [List.append_nil] at hscan
  exact hscan

/-! ### The row of a frame (Table 11-2) -/

/-- Which of STATUS's two rows a frame is (log 19). -/
theorem instr_status (tag : Byte) : ∀ p : List Byte,
    Frame.instr ⟨0x05, tag, p⟩ = if p.length = 2 ∧ p.head? ≠ some 0 then .channelStatus tag p else .deviceStatus tag p
  | [] | [_] => rfl
  | [sel, _] => by by_cases h : sel = 0 <;> simp [Frame.instr, h]
  | _ :: _ :: _ :: _ => by simp [Frame.instr]

/-- Which of STOP's two rows a frame is (log 19). -/
theorem instr_stop (tag : Byte) : ∀ p : List Byte,
    Frame.instr ⟨0x25, tag, p⟩ = if p.length = 2 ∧ p.getLast? = some 1 then .stopBrake tag p else .stopCoast tag p
  | [] | [_] => rfl
  | [_, mode] => by by_cases h : mode = 1 <;> simp [Frame.instr, h]
  | _ :: _ :: _ :: _ => by simp [Frame.instr]

theorem instr_unknownType {type : Byte} (tag : Byte) (p : List Byte) (h : requestTypes.contains type = false) :
    Frame.instr ⟨type, tag, p⟩ = .unknownType type tag p := by
  have hcode : type = BitVec.ofNat 8 type.toNat := by simp
  unfold Frame.instr
  split
  case h_22 => rfl
  all_goals
    next ht =>
      rw [hcode, ht] at h
      cases h

/-- Settles O16: the type names the row but for STATUS and STOP, whose rows are told apart by selector and mode. -/
theorem frameOfARequestIsReadAsThatRequest : Obligations.FrameOfARequestIsReadAsThatRequest := by
  intro i f hw hf
  cases i <;> cases hf
  case deviceStatus tag p =>
    rw [instr_status, if_neg]
    simp only [Instr.wf, Bool.and_eq_true, Bool.or_eq_true, bne_iff_ne, beq_iff_eq] at hw
    tauto
  case channelStatus tag p =>
    rw [instr_status, if_pos]
    simpa [Instr.wf] using hw
  case stopCoast tag p =>
    rw [instr_stop, if_neg]
    simp only [Instr.wf, Bool.and_eq_true, Bool.or_eq_true, bne_iff_ne] at hw
    tauto
  case stopBrake tag p =>
    rw [instr_stop, if_pos]
    simpa [Instr.wf] using hw
  case unknownType type tag p =>
    simp only [Instr.wf, Bool.and_eq_true, Bool.not_eq_true'] at hw
    exact instr_unknownType tag p hw.2
  all_goals rfl

/-! ### What the link answers by itself (R169, R177) -/

theorem exec_unknownType (tag : Byte) (p : List Byte) {type : Byte} {s : State} (hc : s.canTake = true)
    (ht : requestTypes.contains type = false) :
    exec (.unknownType type tag p) s = .next (s.replied type tag { code := .unknown }) := by
  change execUnknownType type tag p s = _
  rw [execUnknownType, if_neg (by rw [ht, hc]; decide)]
  rfl

/-- The length is checked before LOCKED and before the owner. -/
theorem takeRequest_badLength {α : Type} (type tag : Byte) (pl : Bool) (owner : α → State → State × Answer) {s : State}
    (hc : s.canTake = true) :
    takeRequest type tag pl none owner s = .next (s.replied type tag { code := .badLength }) := by
  rw [takeRequest, if_pos hc]
  rfl

/-- Settles O44: neither answer asks an owner. -/
theorem unknownTypeAndBadLengthReachNoOwner : Obligations.UnknownTypeAndBadLengthReachNoOwner := by
  refine ⟨fun type tag p s hc ht => exec_unknownType tag p hc ht, fun i f s hw hf hc ht hv => ?_⟩
  obtain ⟨α, fields, owner, hexec, hsome⟩ := exec_eq_takeRequest hf ht hw
  have hnone : fields = none := by simpa [hv] using hsome
  rw [hexec, hnone]
  exact takeRequest_badLength _ _ _ owner hc

/-! ### The place of an event record (R172) -/

/-- A record stands behind those of no greater key, and before the first of a greater one. -/
theorem insertRecord_split (r : EventRecord) (es : List EventRecord) :
    ∃ goFirst goLast, es = goFirst ++ goLast ∧ insertRecord r es = goFirst ++ r :: goLast ∧
      (∀ e ∈ goFirst, e.key ≤ r.key) ∧ ∀ e ∈ goLast.head?, r.key < e.key := by
  induction es with
  | nil => exact ⟨[], [], rfl, rfl, by simp, by simp⟩
  | cons e es ih =>
    unfold insertRecord
    split
    next hle =>
      obtain ⟨goFirst, goLast, hes, hins, hfirst, hlast⟩ := ih
      exact ⟨e :: goFirst, goLast, by rw [hes]; rfl, by rw [hins]; rfl, List.forall_mem_cons.2 ⟨hle, hfirst⟩, hlast⟩
    next hgt => exact ⟨[], e :: es, rfl, rfl, by simp, by simpa using hgt⟩

/-- The queue with a new record in its place, before its length is looked at. -/
def withRecord (l : Link) (r : EventRecord) : List EventRecord :=
  l.events.take (l.events.length - l.batch) ++ insertRecord r (l.events.drop (l.events.length - l.batch))

theorem length_withRecord (l : Link) (r : EventRecord) : (withRecord l r).length = l.events.length + 1 := by
  rw [withRecord, List.length_append, length_insertRecord, ← Nat.add_assoc, ← List.length_append, List.take_append_drop]

theorem withRecord_batch_zero {l : Link} (r : EventRecord) (h : l.batch = 0) : withRecord l r = l.events ++ [r] := by
  simp [withRecord, h, insertRecord]

/-- The record is of another code or channel than every one that stands. -/
def IsNew (l : Link) (r : EventRecord) : Prop := ∀ e ∈ l.events, ¬(e.code = r.code ∧ e.chan = r.chan)

section

variable {l : Link} {r : EventRecord}

theorem queueEvent_coalesces (h : ∃ e ∈ l.events, e.code = r.code ∧ e.chan = r.chan) :
    l.queueEvent r =
      { l with
        events := l.events.map fun e =>
          if e.code = r.code ∧ e.chan = r.chan then { e with repeats := min 255 (e.repeats + 1) } else e } := by
  have same_iff : ∀ e : EventRecord, r.same e = true ↔ e.code = r.code ∧ e.chan = r.chan := fun e => by
    rw [Scheduling.same_eq_true, Prod.mk.injEq, eq_comm, @eq_comm _ r.chan]
  have hany : l.events.any (r.same ·) = true := List.any_eq_true.2 (by simpa only [same_iff] using h)
  rw [Link.queueEvent, if_pos hany]
  simp only [same_iff]

theorem IsNew.any_same (h : IsNew l r) : ¬l.events.any (r.same ·) = true := by
  rw [List.any_eq_true]
  rintro ⟨e, he, hsame⟩
  rw [Scheduling.same_eq_true, Prod.mk.injEq] at hsame
  exact h e he ⟨hsame.1.symm, hsame.2.symm⟩

theorem IsNew.queueEvent_eq (h : IsNew l r) :
    l.queueEvent r =
      if l.events.length < eventRoom then { l with events := withRecord l r, batch := l.batch + 1 }
      else
        { l with
          events := (withRecord l r).take eventRoom
          discarded := min 65535 (l.discarded + (((withRecord l r).drop eventRoom).map (·.repeats)).sum) } :=
  if_neg h.any_same

theorem IsNew.queueEvent_joins (h : IsNew l r) (hroom : l.events.length < 16) :
    l.queueEvent r = { l with events := withRecord l r, batch := l.batch + 1 } :=
  h.queueEvent_eq.trans (if_pos hroom)

/-- With the queue full the last of the order goes, with every occurrence it counts (log 11). -/
theorem IsNew.queueEvent_discards (h : IsNew l r) (hfull : l.events.length = 16) {kept : List EventRecord} {last : EventRecord}
    (hsplit : withRecord l r = kept ++ [last]) :
    l.queueEvent r = { l with events := kept, discarded := min 65535 (l.discarded + last.repeats) } := by
  have hlen : kept.length = eventRoom := by
    have htotal := congrArg List.length hsplit
    rw [length_withRecord, List.length_append, hfull] at htotal
    exact (Nat.succ.inj htotal).symm
  rw [h.queueEvent_eq, if_neg (by rw [hfull]; decide), hsplit, List.take_left' hlen, List.drop_left' hlen]
  simp

end

/-- Settles O21: the cases of R172, the place of a new record being that of `insertRecord_split`. -/
theorem eventRecordsCoalesceOrJoinOrAreDiscarded : Obligations.EventRecordsCoalesceOrJoinOrAreDiscarded := by
  intro l r key
  have hkey : ∀ e, key e = e.key := by
    rintro ⟨code, _ | _ | _ | _, _, _, _⟩ <;> rfl
  refine ⟨queueEvent_coalesces, fun hnew => ?_, fun hnew hbatch => ⟨fun hroom => ?_, fun hfull hone => ?_⟩⟩
  · obtain ⟨goFirst, goLast, hdrop, hins, hfirst, hlast⟩ := insertRecord_split r (l.events.drop (l.events.length - l.batch))
    have hwith : withRecord l r = l.events.take (l.events.length - l.batch) ++ goFirst ++ r :: goLast := by
      rw [withRecord, hins, List.append_assoc]
    refine ⟨l.events.take (l.events.length - l.batch), goFirst, goLast, ?_, ?_, ?_, ?_, ?_, ?_⟩
    · rw [List.append_assoc, ← hdrop, List.take_append_drop]
    · exact List.length_take_of_le (Nat.sub_le _ _)
    · simpa only [hkey] using hfirst
    · simpa only [hkey] using hlast
    · intro hroom
      rw [← hwith]
      exact IsNew.queueEvent_joins hnew hroom
    · intro hfull kept last hsplit
      exact IsNew.queueEvent_discards hnew hfull (hwith.trans hsplit)
  · rw [IsNew.queueEvent_joins hnew hroom, withRecord_batch_zero r hbatch, hbatch]
  · rw [IsNew.queueEvent_discards hnew hfull (withRecord_batch_zero r hbatch), hone]

/-! ### SET_LINK (R162) -/

/-- With a gap of 0 the transmitter is ready at once (log 27). -/
theorem enterGap_zero {s : State} (h : s.link.gap = 0) : s.enterGap = s.ready := if_pos h

theorem enterGap_pos {s : State} (h : s.link.gap ≠ 0) : s.enterGap = s.modLink fun l => { l with tx := .gap l.gapTicks } :=
  if_neg h

/-- The end of a SET_LINK reply: the ticks it has left pass, its values come into force, and the gap begins. -/
theorem exec_setLinkInForce {s : State} {cs : List Byte} {r : Rate} {g n : Nat} (h : s.link.tx = .sending cs (.setLink r g) n) :
    exec .setLinkInForce s = .next ((s.elapse n).linkInForce r g).enterGap.settle := by
  change execSetLinkInForce s = _
  rw [execSetLinkInForce, h]
  rfl

/-- Settles O23, by R162's checks in order and by the gap that begins. -/
theorem setLinkTakesEffectWhenItsReplyLeaves : Obligations.SetLinkTakesEffectWhenItsReplyLeaves := by
  refine ⟨fun tag r g s hs => ?request, fun s cs r g n htx => ?_⟩
  case request =>
    change takeRequest 0x02 tag false (some (r.toNat, g.toNat)) ownSetLink s = _
    rw [takeRequest_taken _ _ _ _ _ _ hs, ownSetLink, le1_toNat, le1_toNat]
    cases rateOf r.toNat with
    | none => rfl
    | some rate =>
      simp only
      split_ifs <;> rfl
  have hgap : ((s.elapse n).linkInForce r g).link.gap = g := rfl
  rw [exec_setLinkInForce htx]
  refine ⟨fun hg => ?_, fun hg => ?_⟩
  · rw [enterGap_pos (hgap.trans_ne hg)]
    rfl
  · rw [enterGap_zero (hgap.trans hg)]
    rfl

end Sys2Proof.SerialLink

/-!
The block as a whole (ch.10 10.4): a step runs the command at the front of the queue, and no command touches the commands that wait
behind it. The queue is followed from the operations on the state up to the commands; what is said of each is that `State.pending` stays.
-/

namespace Sys2Proof.WholeBlock

open Sys2Proof Sys2Proof.Machine Sys2Proof.SafeStates

/-! ### Leaving the plan-computing states and the trip causes -/

@[simp] theorem toStopped_pending (s : State) (c : Chan) : (s.toStopped c).pending = s.pending := rfl

@[simp] theorem calFailed_pending (s : State) (c : Chan) (f : CalFailure) : (s.calFailed c f).pending = s.pending := rfl

@[simp] theorem reachCause_pending (s : State) (c : Chan) (k : TripCause) : (s.reachCause c k).pending = s.pending := by
  rcases s.reachCause_cases c k with ⟨_, h⟩ | ⟨_, h⟩ | ⟨_, _, h⟩ | ⟨_, _, _, h⟩ <;> rw [h] <;> rfl

/-- A fold keeps the queue when each of its turns does. -/
theorem foldl_pending {α : Type} {f : State → α → State} (hf : ∀ u a, (f u a).pending = u.pending) (l : List α) (s : State) :
    (l.foldl f s).pending = s.pending := by
  induction l generalizing s with
  | nil => rfl
  | cons a l ih => exact (ih (f s a)).trans (hf s a)

@[simp] theorem sendCause_pending (s : State) (k : TripCause) (who : ChanState → Bool) :
    (s.sendCause k who).pending = s.pending := by
  refine foldl_pending (fun u c => ?_) _ s
  split_ifs
  · exact reachCause_pending u c k
  · rfl

@[simp] theorem faultAsserted_pending (s : State) (c : Chan) : (s.faultAsserted c).pending = s.pending := by
  rw [faultAsserted_eq, reachCause_pending]
  rfl

@[simp] theorem sampleFaults_pending (s : State) : s.sampleFaults.pending = s.pending := by
  refine foldl_pending (fun u c => ?_) _ _
  split_ifs
  · exact faultAsserted_pending u c
  · rfl

/-! ### The close of a period (R130 to R133) -/

@[simp] theorem emitReport_pending (s : State) (c : Chan) (w : WorkRecord) : (s.emitReport c w).pending = s.pending := rfl

@[simp] theorem reportStep_pending (s : State) (c : Chan) (w : WorkRecord) : (s.reportStep c w).pending = s.pending := by
  simp only [State.reportStep]
  split_ifs <;> rfl

@[simp] theorem limitStep_pending (s : State) (c : Chan) (before : Nat) : (s.limitStep c before).pending = s.pending := by
  simp only [State.limitStep]
  split_ifs
  · exact reachCause_pending s c _
  · rfl

@[simp] theorem closePeriod_pending (s : State) (c : Chan) : (s.closePeriod c).pending = s.pending := by
  unfold State.closePeriod
  split
  · rfl
  · simp [State.formStep]

/-! ### The step sequencer (R83 to R97) -/

@[simp] theorem setCompare_pending (s : State) (c : Chan) (due : Time) (kind : CompareKind) :
    (s.setCompare c due kind).pending = s.pending := rfl

@[simp] theorem runBegins_pending (s : State) (c : Chan) (t : Time) : (s.runBegins c t).pending = s.pending := by
  simp only [State.runBegins]
  split <;> rfl

@[simp] theorem commutate_pending (s : State) (c : Chan) (t : Time) (peak : Bool) : (s.commutate c t peak).pending = s.pending := rfl

@[simp] theorem startFailed_pending (s : State) (c : Chan) : (s.startFailed c).pending = s.pending := rfl

@[simp] theorem enterSegment_pending (s : State) (c : Chan) (i : Nat) (t : Time) : (s.enterSegment c i t).pending = s.pending := by
  simp only [State.enterSegment]
  split <;> rfl

@[simp] theorem advanceRun_pending (s : State) (c : Chan) (t : Time) (peak : Bool) : (s.advanceRun c t peak).pending = s.pending := by
  simp only [State.advanceRun]
  split_ifs <;> simp

@[simp] theorem lostSyncStep_pending (s : State) (c : Chan) : (s.lostSyncStep c).pending = s.pending := by
  simp only [State.lostSyncStep]
  split_ifs
  · exact reachCause_pending s c _
  · rfl

@[simp] theorem closedCommutation_pending (s : State) (c : Chan) (t : Time) (peak : Bool) (kind : CompareKind) :
    (s.closedCommutation c t peak kind).pending = s.pending := by
  simp only [State.closedCommutation]
  split_ifs
  · exact lostSyncStep_pending _ c
  · rfl

@[simp] theorem applyCompare_pending (s : State) (c : Chan) (t : Time) (peak : Bool) :
    (s.applyCompare c t peak).pending = s.pending := by
  simp only [State.applyCompare]
  split
  · rfl
  · split_ifs
    · split <;> simp
    · rfl

@[simp] theorem handOver_pending (s : State) (c : Chan) (tzc : Time) (delta : Nat) : (s.handOver c tzc delta).pending = s.pending := by
  unfold State.handOver
  split <;> rfl

@[simp] theorem crossingFound_pending (s : State) (c : Chan) (tzc : Time) : (s.crossingFound c tzc).pending = s.pending := rfl

@[simp] theorem rampCrossing_pending (s : State) (c : Chan) (tzc : Time) (early : Bool) :
    (s.rampCrossing c tzc early).pending = s.pending := by
  simp only [State.rampCrossing]
  split_ifs <;> simp

@[simp] theorem closedCrossing_pending (s : State) (c : Chan) (tzc : Time) : (s.closedCrossing c tzc).pending = s.pending := rfl

@[simp] theorem classify_pending (s : State) (c : Chan) (start : Time) (d : Int) : (s.classify c start d).pending = s.pending := by
  simp only [State.classify]
  split_ifs <;> simp

@[simp] theorem senseResult_pending (s : State) (c : Chan) (seq : Seq) (raw : Nat) (start : Time) (input floatInput : Nat) :
    (s.senseResult c seq raw start input floatInput).pending = s.pending := by
  simp only [State.senseResult]
  split
  · split
    · rfl
    · split_ifs <;> simp
  · rfl

/-! ### The monitor and supervision (R144 to R147, R154 to R157) -/

@[simp] theorem examineBus_pending (s : State) (raw : Nat) : (s.examineBus raw).pending = s.pending := by
  simp only [State.examineBus]
  split <;> simp

@[simp] theorem examineTemp_pending (s : State) (raw : Nat) : (s.examineTemp raw).pending = s.pending := by
  simp only [State.examineTemp]
  split_ifs <;> simp

@[simp] theorem auxResult_pending (s : State) (a : AuxSource) (raw merged : Nat) : (s.auxResult a raw merged).pending = s.pending := by
  cases a <;> simp [State.auxResult]

@[simp] theorem busStaleStep_pending (s : State) : s.busStaleStep.pending = s.pending := by
  unfold State.busStaleStep
  split_ifs <;> rfl

@[simp] theorem staleCountStep_pending (s : State) : s.staleCountStep.pending = s.pending := by
  unfold State.staleCountStep
  split_ifs <;> simp

@[simp] theorem supervisionTrip_pending (s : State) (k : SupTrip) : (s.supervisionTrip k).pending = s.pending := by
  simp [State.supervisionTrip]

@[simp] theorem expiryStep_pending (s : State) : s.expiryStep.pending = s.pending := by
  unfold State.expiryStep
  split_ifs <;> simp

@[simp] theorem heartbeatStep_pending (s : State) : s.heartbeatStep.pending = s.pending := by
  unfold State.heartbeatStep
  split
  · rfl
  · split_ifs
    · simp
    · split
      · split_ifs <;> rfl
      · rfl

@[simp] theorem slowStep_pending (s : State) : s.slowStep.pending = s.pending := by simp [State.slowStep]

/-! ### The converter (R108 to R113) -/

@[simp] theorem calDoneStep_pending (s : State) (c : Chan) : (s.calDoneStep c).pending = s.pending := by
  simp only [State.calDoneStep]
  split_ifs <;> simp

@[simp] theorem calResult_pending (s : State) (c : Chan) (seq : Seq) (raw : Nat) : (s.calResult c seq raw).pending = s.pending := by
  simp only [State.calResult]
  split_ifs <;> simp

@[simp] theorem channelResult_pending (s : State) (c : Chan) (v : Conversion) (raw : Nat) :
    (s.channelResult c v raw).pending = s.pending := by
  simp only [State.channelResult]
  split
  · exact calResult_pending s c _ raw
  · simp
  · rfl

@[simp] theorem completeConversion_pending (s : State) (v : Conversion) (raw : Nat) :
    (s.completeConversion v raw).pending = s.pending := by
  simp only [State.completeConversion]
  split <;> simp

/-! ### Period starts (R23, R32, R37, R43, R79) -/

@[simp] theorem insertRequest_pending (s : State) (c : Chan) (t : Time) (seq : Seq) (r : PlanRequest) :
    (s.insertRequest c t seq r).pending = s.pending := by
  simp only [State.insertRequest]
  split_ifs <;> rfl

@[simp] theorem insertRequests_pending (s : State) (c : Chan) (t : Time) (p : Plan) : (s.insertRequests c t p).pending = s.pending :=
  foldl_pending (fun u r => insertRequest_pending u c t p.seq r) _ s

@[simp] theorem planCurrent_pending (s : State) (c : Chan) (t : Time) : (s.planCurrent c t).pending = s.pending := by
  simp only [State.planCurrent]
  split
  · rfl
  · split_ifs <;> simp

@[simp] theorem computePlan_pending (s : State) (c : Chan) (m : Seq) : (s.computePlan c m).pending = s.pending := rfl

@[simp] theorem staleWarn_pending (s : State) (c : Chan) : (s.staleWarn c).pending = s.pending := by
  simp only [State.staleWarn]
  split_ifs <;> rfl

@[simp] theorem staleTripStep_pending (s : State) (c : Chan) : (s.staleTripStep c).pending = s.pending := by
  simp only [State.staleTripStep]
  split_ifs
  · exact reachCause_pending s c _
  · rfl

@[simp] theorem calTimeoutStep_pending (s : State) (c : Chan) : (s.calTimeoutStep c).pending = s.pending := by
  simp only [State.calTimeoutStep]
  split_ifs <;> rfl

@[simp] theorem vectorPeriod_pending (s : State) (c : Chan) (t : Time) (m : Seq) : (s.vectorPeriod c t m).pending = s.pending := by
  simp only [State.vectorPeriod]
  split_ifs <;> simp

@[simp] theorem stepPeriod_pending (s : State) (c : Chan) (t : Time) (m : Seq) : (s.stepPeriod c t m).pending = s.pending := by
  simp only [State.stepPeriod]
  split_ifs <;> simp

@[simp] theorem calPeriod_pending (s : State) (c : Chan) (t : Time) (m : Seq) : (s.calPeriod c t m).pending = s.pending := by
  simp only [State.calPeriod]
  split_ifs <;> simp

@[simp] theorem periodWork_pending (s : State) (c : Chan) (t : Time) (m : Seq) : (s.periodWork c t m).pending = s.pending := by
  simp only [State.periodWork]
  split <;> simp

@[simp] theorem masterWork_pending (s : State) : s.masterWork.pending = s.pending := by simp [State.masterWork]

/-! ### Start-up, QUIET, the wake and the link -/

@[simp] theorem endStartUp_pending (s : State) : s.endStartUp.pending = s.pending := by
  simp [State.endStartUp, State.carrierRestart]

@[simp] theorem quietEntryNow_pending (s : State) : s.quietEntryNow.pending = s.pending := by
  rcases s.quietEntryNow_cases with ⟨_, _, _, h⟩ | ⟨_, h⟩
  · rw [h]; rfl
  · rw [h]

@[simp] theorem ready_pending (s : State) : s.ready.pending = s.pending := rfl

@[simp] theorem transmitAgain_pending (s : State) : s.transmitAgain.pending = s.pending := by
  unfold State.transmitAgain
  split <;> rfl

@[simp] theorem wakeNow_pending (s : State) : s.wakeNow.pending = s.pending := by
  simp [State.wakeNow, State.carrierRestart]

@[simp] theorem enterGap_pending (s : State) : s.enterGap.pending = s.pending := by
  unfold State.enterGap
  split_ifs <;> rfl

@[simp] theorem linkInForce_pending (s : State) (r : Rate) (gap : Nat) : (s.linkInForce r gap).pending = s.pending := rfl

/-- Every block is reset; the commands that wait are not the block's (R13, R14). -/
@[simp] theorem messageResetNow_pending (s : State) : s.messageResetNow.pending = s.pending := rfl

@[simp] theorem frameGone_pending (s : State) (e : ReplyEffect) : (s.frameGone e).pending = s.pending := by
  cases e <;> simp [State.frameGone]

@[simp] theorem rxItem_pending (s : State) (x : RxItem) : (s.rxItem x).pending = s.pending := by
  unfold State.rxItem
  split
  · rfl
  · split_ifs <;> rfl

@[simp] theorem receive_pending (s : State) (cs : List Byte) (left : Nat) : (s.receive cs left).pending = s.pending :=
  foldl_pending rxItem_pending _ s

@[simp] theorem linkError_pending (s : State) (f : LinkFailure) : (s.linkError f).pending = s.pending := rfl

@[simp] theorem wakeBegins_pending (s : State) (char : Byte) : (s.wakeBegins char).pending = s.pending := by
  unfold State.wakeBegins
  split_ifs <;> rfl

/-! ### The owners of the requests -/

theorem onChannel_pending {n : Nat} {owner : Chan → State → State × Answer} {s : State}
    (h : ∀ c, (owner c s).1.pending = s.pending) : (onChannel n owner s).1.pending = s.pending := by
  unfold onChannel
  split
  · rfl
  · exact h _

theorem ownSetLink_pending (f : Nat × Nat) (s : State) : (ownSetLink f s).1.pending = s.pending := by
  unfold ownSetLink
  split
  · rfl
  · split_ifs <;> rfl

theorem ownSleep_pending (f : Unit) (s : State) : (ownSleep f s).1.pending = s.pending := by
  unfold ownSleep
  split_ifs <;> rfl

theorem ownStatus_pending (f : Nat × Nat) (s : State) : (ownStatus f s).1.pending = s.pending := by
  unfold ownStatus
  split_ifs
  · split <;> rfl
  · split <;> rfl
  · split
    · rfl
    · split <;> rfl

theorem ownRecover_pending (f : Unit) (s : State) : (ownRecover f s).1.pending = s.pending := by
  unfold ownRecover
  split_ifs <;> rfl

theorem ownSupervise_pending (f : Nat × Nat) (s : State) : (ownSupervise f s).1.pending = s.pending := by
  unfold ownSupervise
  split_ifs <;> rfl

theorem ownHeartbeat_pending (n : Nat) (s : State) : (ownHeartbeat n s).1.pending = s.pending := by
  unfold ownHeartbeat
  split_ifs <;> rfl

theorem ownCarrier_pending (f : Nat × Nat) (s : State) : (ownCarrier f s).1.pending = s.pending := by
  unfold ownCarrier
  split_ifs
  · rfl
  · rfl
  · rfl
  · split <;> rfl

theorem ownConverter_pending (f : Levels) (s : State) : (ownConverter f s).1.pending = s.pending := by
  unfold ownConverter
  split_ifs <;> rfl

theorem ownAuxPlan_pending (f : Nat × List AuxFields) (s : State) : (ownAuxPlan f s).1.pending = s.pending := by
  unfold ownAuxPlan
  split_ifs
  · rfl
  · split <;> rfl

theorem ownLimits_pending (f : LimitFields) (s : State) : (ownLimits f s).1.pending = s.pending := by
  unfold ownLimits
  split_ifs <;> rfl

theorem ownSetup_pending (f : Nat × List (Nat × Nat)) (s : State) : (ownSetup f s).1.pending = s.pending := by
  refine onChannel_pending fun c => ?_
  split <;> rfl

@[simp] theorem activateIdle_pending (s : State) (c : Chan) : (s.activateIdle c).pending = s.pending := by
  simp only [State.activateIdle]
  split_ifs <;> rfl

theorem ownActivate_pending (n : Nat) (s : State) : (ownActivate n s).1.pending = s.pending := by
  refine onChannel_pending fun c => ?_
  dsimp only
  split
  · rfl
  · split
    · rfl
    · split_ifs <;> simp

theorem ownProfile_pending (f : Nat × Nat × List SegmentFields) (s : State) : (ownProfile f s).1.pending = s.pending := by
  refine onChannel_pending fun c => ?_
  dsimp only
  split_ifs
  · rfl
  · rfl
  · split <;> rfl

theorem ownCalibrate_pending (n : Nat) (s : State) : (ownCalibrate n s).1.pending = s.pending := by
  refine onChannel_pending fun c => ?_
  split_ifs <;> rfl

theorem ownStart_pending (f : Nat × Option StepFields) (s : State) : (ownStart f s).1.pending = s.pending := by
  refine onChannel_pending fun c => ?_
  dsimp only
  split
  · rfl
  · split
    · rfl
    · rfl
    · split_ifs <;> rfl
    · split
      · rfl
      · split <;> rfl

@[simp] theorem stopCoast_pending (s : State) (c : Chan) : (s.stopCoast c).1.pending = s.pending := by
  unfold State.stopCoast
  split <;> rfl

@[simp] theorem stopBrake_pending (s : State) (c : Chan) : (s.stopBrake c).1.pending = s.pending := by
  unfold State.stopBrake
  split <;> rfl

theorem ownStop_pending (f : Nat × Nat) (s : State) : (ownStop f s).1.pending = s.pending := by
  refine onChannel_pending fun c => ?_
  split
  · exact stopCoast_pending s c
  · exact stopBrake_pending s c
  · rfl

theorem ownVectorSet_pending (f : VectorFields) (s : State) : (ownVectorSet f s).1.pending = s.pending := by
  refine onChannel_pending fun c => ?_
  dsimp only
  split_ifs <;> rfl

theorem ownStepSet_pending (f : StepSetFields) (s : State) : (ownStepSet f s).1.pending = s.pending := by
  refine onChannel_pending fun c => ?_
  dsimp only
  split_ifs <;> rfl

theorem ownClearTrip_pending (n : Nat) (s : State) : (ownClearTrip n s).1.pending = s.pending := by
  refine onChannel_pending fun c => ?_
  split_ifs <;> rfl

/-! ### The commands -/

/-- An outcome is a next state with the queue of waiting commands of s. -/
def NextKeepsQueue (s : State) (o : Host.Outcome State Fault Refusal) : Prop := ∃ t, o = .next t ∧ t.pending = s.pending

theorem NextKeepsQueue.unchanged (s : State) : NextKeepsQueue s (.next s) := ⟨s, rfl, rfl⟩

theorem NextKeepsQueue.settled {s u : State} (h : u.pending = s.pending) : NextKeepsQueue s (done u) :=
  ⟨u.settle, rfl, u.settle_pending.trans h⟩

theorem NextKeepsQueue.ite {p : Prop} [Decidable p] {s : State} {a b : Host.Outcome State Fault Refusal}
    (ha : NextKeepsQueue s a) (hb : NextKeepsQueue s b) : NextKeepsQueue s (if p then a else b) := by
  split_ifs
  · exact ha
  · exact hb

/-- The link's part of a request keeps the queue; the rest is the owner's. -/
theorem NextKeepsQueue.request {α : Type} {type tag : Byte} {pl : Bool} {fields : Option α} {owner : α → State → State × Answer}
    {s : State} (ho : ∀ a, (owner a s).1.pending = s.pending) : NextKeepsQueue s (takeRequest type tag pl fields owner s) := by
  refine .ite ?_ (.unchanged s)
  cases fields with
  | none => exact .settled rfl
  | some a => exact .ite (.settled rfl) (.settled (ho a))

/-- Every command, by the shape of its meaning: a request, which is its owner's; an effect in every state; an effect under a test, or under
what a match of the state finds. -/
theorem exec_nextKeepsQueue (i : Instr) (s : State) : NextKeepsQueue s (exec i s) := by
  cases i
  case ident | reset => exact .request fun _ => rfl
  case setLink => exact .request fun f => ownSetLink_pending f s
  case sleep => exact .request fun f => ownSleep_pending f s
  case deviceStatus | channelStatus => exact .request fun f => ownStatus_pending f s
  case recover => exact .request fun f => ownRecover_pending f s
  case supervise => exact .request fun f => ownSupervise_pending f s
  case heartbeat => exact .request fun f => ownHeartbeat_pending f s
  case carrier => exact .request fun f => ownCarrier_pending f s
  case converter => exact .request fun f => ownConverter_pending f s
  case auxPlan => exact .request fun f => ownAuxPlan_pending f s
  case limits => exact .request fun f => ownLimits_pending f s
  case channelSetup => exact .request fun f => ownSetup_pending f s
  case activate => exact .request fun f => ownActivate_pending f s
  case profile => exact .request fun f => ownProfile_pending f s
  case calibrate => exact .request fun f => ownCalibrate_pending f s
  case start => exact .request fun f => ownStart_pending f s
  case stopCoast | stopBrake => exact .request fun f => ownStop_pending f s
  case vectorSet => exact .request fun f => ownVectorSet_pending f s
  case stepSet => exact .request fun f => ownStepSet_pending f s
  case clearTrip => exact .request fun f => ownClearTrip_pending f s
  case unknownType => exact .ite (.unchanged s) (.settled rfl)
  case powerOnReset | pinReset => exact .settled rfl
  case busStale => exact .settled (busStaleStep_pending s)
  case stale c => exact .settled (staleWarn_pending s c)
  case staleTrip c => exact .settled (staleTripStep_pending s c)
  case calTimeout c => exact .settled (calTimeoutStep_pending s c)
  case lostSync c => exact .settled (lostSyncStep_pending s c)
  case calDone c => exact .settled (calDoneStep_pending s c)
  case currentLimit c => exact .settled (limitStep_pending s c _)
  case masterPeriodStart => exact .ite (.settled (by simp)) (.unchanged s)
  case handover c tzc => exact .ite (.settled (rampCrossing_pending s c tzc false)) (.unchanged s)
  case resetRelease => exact .ite (.settled rfl) (.unchanged s)
  case slowStep => exact .ite (.settled (slowStep_pending s)) (.unchanged s)
  case windowExpiry => exact .ite (.settled (expiryStep_pending s)) (.unchanged s)
  case frameTimeout => exact .ite (.settled (by simp)) (.unchanged s)
  case faultInputAssertion c => exact .ite (.settled (faultAsserted_pending _ c)) (.settled rfl)
  case faultInputRelease => exact .ite (.settled rfl) (.settled rfl)
  case characterArrival => exact .ite (.ite (.ite (.unchanged s) (.settled (by simp))) (.settled (by simp))) (.unchanged s)
  case startUpEnd | wakeComplete | frameSent | setLinkInForce | messageReset | quietEntry | gapEnd | channelPeriodStart
      | halfPeriodPoint | pendingTurnOn | conversionComplete =>
    simp only [exec, execStartUpEnd, execWakeComplete, execFrameSent, execSetLinkInForce, execMessageReset, execQuietEntry,
      execGapEnd, execChannelPeriodStart, execHalfPeriodPoint, execPendingTurnOn, execConversionComplete]
    split
    · exact .settled (by simp)
    · exact .unchanged s
  case commutationDue =>
    simp only [exec, execCommutationDue]
    split
    · exact .ite (.unchanged s) (.settled (by simp))
    · exact .unchanged s
  case periodReport =>
    simp only [exec, execPeriodReport]
    split
    · exact .ite (.settled (emitReport_pending s _ _)) (.unchanged s)
    · exact .unchanged s
  case gateEdge =>
    simp only [exec, execGateEdge]
    split
    · split
      · exact .unchanged s
      · exact .settled (by simp)
    · exact .unchanged s
  case conversionStart =>
    simp only [exec, execConversionStart]
    split
    · split
      · refine .settled ?_
        split_ifs <;> simp [State.startConversion]
      · exact .unchanged s
    · exact .unchanged s
  case late =>
    simp only [exec, execLate]
    split
    · split
      · exact .settled (by simp [State.removeLate])
      · exact .unchanged s
    · exact .unchanged s

/-- Settles O1: with a command at the front, `step` is by definition `exec` on the rest. -/
theorem stepRunsTheFrontCommand : Obligations.StepRunsTheFrontCommand := by
  intro i s
  rfl

/-- Settles O2, command by command from what the operations keep. -/
theorem everyCommandAnswersNextAndKeepsTheQueue : Obligations.EveryCommandAnswersNextAndKeepsTheQueue :=
  exec_nextKeepsQueue

end Sys2Proof.WholeBlock

/-!
The device from reset to reset (ch.1, with ch.9 R160 and ch.10 R161 to R174): IDENT, the resets and start-up, QUIET entry and the wake, the
ends of frames and gaps, and what the block does with no command waiting. Each statement is settled from a lemma that says once what the
operation of its command leaves of each block.
-/

namespace Sys2Proof.DeviceLife

open Sys2Proof Sys2Proof.Machine Sys2Proof.Motor

/-! ### IDENT (R16) -/

/-- Settles O22: IDENT passes LOCKED to its owner, which reads four fields. -/
theorem identAnswersPartRevisionCauseAndRate : Obligations.IdentAnswersPartRevisionCauseAndRate := by
  intro tag s hc
  simp [exec, execIdent, takeRequest, readNone, hc, done_eq, State.replied, ownIdent, le1, le2, byte]

/-! ### The end of a step outside running, and what time leaves of the link -/

/-- In reset and start-up the end of a step holds the link and deasserts ATTN (R149). -/
theorem settle_of_reset {s : State} (h : s.isRunning = false) : s.settle = { s with attn := false } := by
  simp [State.settle, State.mayTransmit, State.clockRuns, State.attnLevel, h]

/-- Where the device may not transmit, the end of a step leaves the link. -/
theorem settle_link_held {s : State} (h : s.mayTransmit = false) : s.settle.link = s.link := by
  simp [State.settle_link, h]

theorem instantOver_held {s : State} (h : s.mayTransmit = false) : s.instantOver = s := by
  simp [State.instantOver, h]

/-- What the end of an instant can write of the link: the transmitter and its queues. -/
theorem moveInto_eq (l : Link) :
    l.moveInto = { l with out := l.moveInto.out, events := l.moveInto.events, batch := l.moveInto.batch, moveOwed := false } := by
  unfold Link.moveInto Link.moveEvent
  split
  · split <;> rfl
  · rfl

theorem ready_eq (l : Link) :
    l.ready =
      { l with out := l.ready.out, tx := l.ready.tx, autoSeq := l.ready.autoSeq, moveOwed := l.ready.moveOwed } := by
  unfold Link.ready
  split
  · rw [Link.begin_eq]
  · rfl

theorem finish_eq (l : Link) :
    l.finish =
      { l with
        tx := l.finish.tx, out := l.finish.out, events := l.finish.events, batch := l.finish.batch,
        moveOwed := l.finish.moveOwed, autoSeq := l.finish.autoSeq } := by
  unfold Link.finish Link.beginWaiting
  split
  · split
    · rw [ready_eq]
    · split
      · rw [moveInto_eq, ready_eq]
      · rw [Link.begin_eq]
  · split
    · rw [moveInto_eq]
    · rfl

/-- Time leaves what the transmitter and the timeout do not write: the rate, the gap, the receiver's characters and its buffer. -/
theorem elapse_link_frame (s : State) (n : Nat) :
    (s.elapse n).link.rate = s.link.rate ∧ (s.elapse n).link.gap = s.link.gap ∧ (s.elapse n).link.rx = s.link.rx ∧
      (s.elapse n).link.rxBuf = s.link.rxBuf := by
  rcases s.elapse_cases n with ⟨_, h⟩ | ⟨_, h⟩ <;> rw [h]
  · exact ⟨rfl, rfl, rfl, rfl⟩
  · rw [State.pass_link]
    rcases s.instantOver_cases with ho | ho <;> rw [ho]
    · exact ⟨rfl, rfl, rfl, rfl⟩
    · simp only
      rw [finish_eq]
      exact ⟨rfl, rfl, rfl, rfl⟩

/-! ### RESET and the message reset (R14) -/

/-- Settles O24: the request marks the reset as pending, and the state that it ends in is out of running, where the end of a step adds
nothing. -/
theorem resetRequestResetsWhenItsReplyLeaves : Obligations.ResetRequestResetsWhenItsReplyLeaves := by
  refine ⟨fun tag s hs => ?request, fun s cs n htx => ?_⟩
  case request =>
    change takeRequest 0x03 tag false (some ()) ownReset s = _
    rw [takeRequest_taken _ _ _ _ _ _ hs]
    rfl
  have run : exec .messageReset s = .next (s.elapse n).messageResetNow.settle := by
    simp only [exec, execMessageReset, htx, done_eq]
  obtain ⟨hrate, hgap, _, _⟩ := elapse_link_frame s n
  rw [run, settle_of_reset rfl]
  simp [State.messageResetNow, State.resetBlocks, State.reset, startUpTicks, hrate, hgap]

/-! ### The fault inputs at the end of start-up and of a wake (R12, R15, R141) -/

/-- The TRIP record of a fault input that is asserted on a channel that does not drive: the cause with the idle mark (R140). -/
def idleTrip (seq : Seq) (c : Chan) : EventRecord :=
  { code := .trip, chan := some c, seq := seq, repeats := 1, detail := 257 }

/-- One channel's turn of `State.sampleFaults`. -/
def faultTurn (s : State) (c : Chan) : State := if s.prot.pins.get c then s.faultAsserted c else s

theorem sampleFaults_eq_turns (s : State) :
    s.sampleFaults = Chan.all.foldl faultTurn (s.modProt fun p => { p with levels := p.pins }) := rfl

/-- An assertion on an idle channel turns its gates off and queues its record. -/
theorem faultAsserted_idle {s : State} {c : Chan} (h : (s.chan c).state.idle = true) :
    s.faultAsserted c =
      { SafeStates.gatesCut s c with link := s.link.queueEvent (idleTrip s.masterSeqNow c) } := by
  have cut : ((SafeStates.gatesCut s c).chan c).state = (s.chan c).state := by rw [SafeStates.chan_gatesCut]
  rw [SafeStates.faultAsserted_eq]
  rcases (SafeStates.gatesCut s c).reachCause_cases c .faultInput with ⟨hs, _⟩ | ⟨hs, _⟩ | ⟨hs, _, _⟩ | ⟨_, _, _, he⟩
  case inr.inr.inr => exact he
  all_goals
    rw [cut] at hs
    cases hk : (s.chan c).state <;> rw [hk] at h hs <;> cases h <;> cases hs

/-- What taking the fault inputs leaves where each asserted one finds its channel idle. -/
structure Sampled (s t : State) (l : Link) : Prop where
  blocks : t = { s with ch := t.ch, link := l }
  chan : ∀ c, t.chan c = { s.chan c with gates := (t.chan c).gates, safe := (t.chan c).safe }

theorem Sampled.refl (s : State) : Sampled s s s.link := ⟨rfl, fun _ => rfl⟩

theorem sampled_faultAsserted {s : State} {c : Chan} (h : (s.chan c).state.idle = true) :
    Sampled s (s.faultAsserted c) (s.link.queueEvent (idleTrip s.masterSeqNow c)) := by
  refine ⟨by rw [faultAsserted_idle h]; rfl, fun x => ?_⟩
  by_cases hx : x = c
  · subst hx
    rw [faultAsserted_idle h]
    change (SafeStates.gatesCut s x).chan x = { s.chan x with
      gates := ((SafeStates.gatesCut s x).chan x).gates, safe := ((SafeStates.gatesCut s x).chan x).safe }
    rw [SafeStates.chan_gatesCut]
  · rw [SafeStates.chan_faultAsserted_other s hx]

theorem Sampled.trans {s t u : State} {l m : Link} (h : Sampled s t l) (h' : Sampled t u m) : Sampled s u m := by
  refine ⟨?_, fun c => ?_⟩
  · rw [h'.blocks, h.blocks]
  · rw [h'.chan, h.chan]

theorem sampled_turns (cs : List Chan) {s : State} (h : ∀ c, s.prot.pins.get c = true → (s.chan c).state.idle = true) :
    Sampled s (cs.foldl faultTurn s)
      ((cs.filter (s.prot.pins.get ·)).foldl (fun l c => l.queueEvent (idleTrip s.masterSeqNow c)) s.link) := by
  induction cs generalizing s with
  | nil => exact .refl s
  | cons c cs ih =>
    rw [List.foldl_cons, List.filter_cons, faultTurn]
    split_ifs with hc
    case neg => exact ih h
    have one := sampled_faultAsserted (h c hc)
    have pins : (s.faultAsserted c).prot = s.prot := by rw [one.blocks]
    have seq : (s.faultAsserted c).masterSeqNow = s.masterSeqNow :=
      State.masterSeqNow_congr (by rw [one.blocks]) (by rw [one.blocks])
    have link : (s.faultAsserted c).link = s.link.queueEvent (idleTrip s.masterSeqNow c) := by rw [one.blocks]
    have rest := ih (s := s.faultAsserted c) fun x hx => by
      rw [one.chan]
      exact h x (by rwa [pins] at hx)
    rw [pins, seq, link] at rest
    exact one.trans rest

/-- Taking the fault inputs where each asserted one finds its channel idle: the levels are the inputs', and each asserted input gives its
record, in channel order. -/
theorem sampled_sampleFaults {s : State} (h : ∀ c, s.prot.pins.get c = true → (s.chan c).state.idle = true) :
    Sampled (s.modProt fun p => { p with levels := p.pins }) s.sampleFaults
      ((Chan.all.filter (s.prot.pins.get ·)).foldl (fun l c => l.queueEvent (idleTrip s.masterSeqNow c)) s.link) :=
  sampled_turns Chan.all (s := s.modProt fun p => { p with levels := p.pins }) h

/-! ### Resets and start-up (R13, R15) -/

/-- Time in start-up moves nothing of the link but its own ticks. -/
theorem elapse_startUp_link {s : State} {n m : Nat} (h : s.power.phase = .startUp m) :
    (s.elapse n).link.events = s.link.events ∧ (s.link.batch = 0 → (s.elapse n).link.batch = 0) := by
  have held : s.mayTransmit = false := by simp [State.mayTransmit, State.clockRuns, State.isRunning, h]
  rcases s.elapse_cases n with ⟨_, he⟩ | ⟨_, he⟩ <;> rw [he]
  · exact ⟨rfl, id⟩
  · rw [State.pass_link, instantOver_held held]
    exact ⟨rfl, fun _ => rfl⟩

/-- The records of asserted fault inputs follow a device record of the same instant, in channel order (R172). -/
theorem events_idleTrips (l : Link) (d : Nat) (seq : Seq) (asserted : Chan → Bool) :
    let first : EventRecord := { code := .resetDone, chan := none, seq := seq, repeats := 1, detail := d }
    ((Chan.all.filter asserted).foldl (fun (l : Link) c => l.queueEvent (idleTrip seq c))
        { l with events := [first], batch := 1 }).events =
      first :: (Chan.all.filter asserted).map (idleTrip seq) := by
  intro first
  simp only [Chan.all, List.filter_cons, List.filter_nil]
  cases asserted .m1 <;> cases asserted .m2 <;> cases asserted .m3 <;> rfl

/-- The state in which start-up's end queues RESET_DONE and takes the fault inputs (R15): the carrier restarted at device time 0. -/
def started (s : State) : State :=
  ({ s with
      power := { s.power with phase := .running, supplyNew := false }
      tb := { s.tb with now := 0, dev := .active, cause := s.power.cause }
      link := { s.link with tx := .gap s.link.gapTicks } } : State).carrierRestart

theorem endStartUp_eq (s : State) :
    s.endStartUp = ((started s).queueEvent .resetDone none s.power.cause.code).sampleFaults := rfl

/-- At device time 0 the master period start of sequence 0 is still to come (log 6). -/
theorem started_masterSeqNow (s : State) : (started s).masterSeqNow = 0 := ite_self 0

theorem chan_started_state (s : State) (c : Chan) : ((started s).chan c).state = (s.chan c).state := by
  cases c <;> rfl

/-- A first record of an instant in an empty event queue. -/
theorem queueEvent_empty {l : Link} (r : EventRecord) (he : l.events = []) (hb : l.batch = 0) :
    l.queueEvent r = { l with events := [r], batch := 1 } := by
  simp [Link.queueEvent, he, hb, insertRecord, eventRoom]

/-- What the end of start-up leaves where no channel is configured and no record waits: RESET_DONE and the records of asserted inputs
(R15). -/
theorem endStartUp_sampled {s : State} (hst : ∀ c, (s.chan c).state = .unconfigured) (he : s.link.events = [])
    (hb : s.link.batch = 0) :
    Sampled ((started s).modProt fun p => { p with levels := p.pins }) s.endStartUp
      ((Chan.all.filter (s.prot.pins.get ·)).foldl (fun l c => l.queueEvent (idleTrip 0 c))
        { (started s).link with
          events := [{ code := .resetDone, chan := none, seq := 0, repeats := 1, detail := s.power.cause.code }]
          batch := 1 }) := by
  have hq : (started s).queueEvent .resetDone none s.power.cause.code = { started s with
      link := { (started s).link with
        events := [{ code := .resetDone, chan := none, seq := 0, repeats := 1, detail := s.power.cause.code }]
        batch := 1 } } := by
    rw [State.queueEvent_eq, started_masterSeqNow, queueEvent_empty (l := (started s).link) _ he hb]
  have h := sampled_sampleFaults (s := (started s).queueEvent .resetDone none s.power.cause.code) fun c _ => by
    rw [State.chan_queueEvent, chan_started_state, hst]
    rfl
  rw [show ((started s).queueEvent .resetDone none s.power.cause.code).masterSeqNow = 0 from started_masterSeqNow s,
    ← endStartUp_eq, hq] at h
  exact ⟨h.blocks, h.chan⟩

/-- Records queued behind others touch nothing of the link but its event queue. -/
theorem foldl_queueEvent_tx (rs : List Chan) (f : Chan → EventRecord) (l : Link) :
    (rs.foldl (fun l c => l.queueEvent (f c)) l).tx = l.tx := by
  induction rs generalizing l with
  | nil => rfl
  | cons c rs ih =>
    rw [List.foldl_cons, ih, Link.queueEvent_eq]

/-- The end of start-up leaves records behind, and the master period start of its instant is still to come: they wait (log 41). -/
theorem endStartUp_settle {s : State} (hmore : s.endStartUp.tb.masterNext = s.endStartUp.tb.now)
    (hrun : s.endStartUp.clockRuns = true) (he : s.endStartUp.link.events ≠ []) :
    s.endStartUp.settle = { s.endStartUp with attn := true } := by
  have more : s.endStartUp.moreToCome = true := by simp [State.moreToCome, hrun, hmore]
  have hr : s.endStartUp.isRunning = true := by
    simp only [State.clockRuns, Bool.and_eq_true] at hrun
    exact hrun.1
  simp [State.settle, more, List.isEmpty_iff, he, State.attnLevel, hr]

/-- Settles O45: supply and pin by the reset state, which is out of running, and the end of start-up by `endStartUp_sampled`. -/
theorem resetsAndStartUp : Obligations.ResetsAndStartUp := by
  refine ⟨fun v s => ?supply, fun s => ?pin, fun s hp => ?release, fun s n hph hev hb hst => ?startUp⟩
  case supply =>
    have off : ({ s.resetBlocks false with
        power := ({ s.power with supply := v, supplyNew := v || s.power.supplyNew } : Power).begin } : State).isRunning
          = false := by
      cases v <;> cases hl : s.power.pinLow <;> simp [State.isRunning, Power.begin, hl]
    refine (congrArg _ (settle_of_reset off)).trans ?_
    cases v <;> rfl
  case pin =>
    have off : ({ s.resetBlocks false with
        power := ({ s.power with pinLow := true, nextCause := .pin } : Power).begin } : State).isRunning = false := by
      cases hs : s.power.supply <;> simp [State.isRunning, Power.begin, hs]
    refine (congrArg _ (settle_of_reset off)).trans ?_
    cases hs : s.power.supply <;> simp [State.resetBlocks, Power.begin, State.reset, hs]
  case release =>
    have off : ({ s with power := ({ s.power with pinLow := false } : Power).begin } : State).isRunning = false := by
      cases hs : s.power.supply <;> simp [State.isRunning, Power.begin, hs]
    simp only [exec, execResetRelease, hp, if_true, done_eq]
    rw [settle_of_reset off]
    cases hs : s.power.supply <;> simp [Power.begin, startUpTicks, hs]
  case startUp =>
    have run : exec .startUpEnd s = .next (s.elapse n).endStartUp.settle := by
      simp only [exec, execStartUpEnd, hph, done_eq]
    obtain ⟨hsupply, hpin, hnew, hcause⟩ := s.elapse_supply n
    obtain ⟨hevents, hbatch⟩ := elapse_startUp_link (n := n) hph
    obtain ⟨hrate, hgap, _, _⟩ := elapse_link_frame s n
    obtain ⟨blocks, chan⟩ := endStartUp_sampled (s := s.elapse n)
      (fun c => by rw [Scheduling.elapse_state, hst]) (hevents.trans hev) (hbatch hb)
    have events := congrArg (·.link.events) blocks
    simp only [State.elapse_prot] at events
    rw [events_idleTrips] at events
    have settled := endStartUp_settle (s := s.elapse n) (by rw [blocks]; rfl) (by rw [blocks]; rfl)
      (by rw [events]; exact List.cons_ne_nil _ _)
    have cause : (s.elapse n).power.cause = (if s.power.supplyNew then .power else s.power.nextCause) := by
      rw [Power.cause, hnew, hcause]
    have power : (s.elapse n).endStartUp.power = { s.power with phase := .running, supplyNew := false } := by
      rw [blocks]
      change ({ (s.elapse n).power with phase := .running, supplyNew := false } : Power) = _
      simp only [hsupply, hpin, hcause]
    have tb : (s.elapse n).endStartUp.tb = (started (s.elapse n)).tb := by rw [blocks]; rfl
    have tx : (s.elapse n).endStartUp.link.tx = .gap (s.link.gap * s.link.rate.bitTicks) := by
      rw [blocks, foldl_queueEvent_tx]
      change Transmitter.gap ((s.elapse n).link.gap * (s.elapse n).link.rate.bitTicks) = _
      rw [hrate, hgap]
    have levels : (s.elapse n).endStartUp.prot.levels = s.prot.pins := by
      rw [blocks, ← State.elapse_prot s n]
      rfl
    refine ⟨_, run.trans (congrArg _ settled), power, ?_⟩
    simp only [tb]
    refine ⟨rfl, rfl, ?half, ?dead, cause, rfl, rfl, rfl, rfl, tx, events, levels, trivial, fun c => ?_⟩
    case half =>
      change (s.elapse n).tb.h = _
      rw [State.elapse_tb]
    case dead =>
      change (s.elapse n).tb.d = _
      rw [State.elapse_tb]
    change ((s.elapse n).endStartUp.chan c).state = _
    rw [chan]
    exact (chan_started_state _ c).trans ((Scheduling.elapse_state s n c).trans (hst c))

/-! ### SLEEP and QUIET entry (R10, R11, R157, R160) -/

theorem idle_iff (x : ChanState) : x.idle = true ↔ x = .unconfigured ∨ x = .stopped := by cases x <;> decide

theorem allIdle_iff (s : State) :
    s.allIdle = true ↔ ∀ c, (s.chan c).state = .unconfigured ∨ (s.chan c).state = .stopped := by
  simp only [State.allIdle, Chan.all, List.all_cons, List.all_nil, Bool.and_true, Bool.and_eq_true, idle_iff]
  exact ⟨fun ⟨h1, h2, h3⟩ c => by cases c <;> assumption, fun h => ⟨h .m1, h .m2, h .m3⟩⟩

/-- The gap that follows a frame touches the link alone. -/
theorem enterGap_eq (s : State) : s.enterGap = { s with link := s.enterGap.link } := by
  unfold State.enterGap
  split <;> rfl

/-- Where the device may not transmit, the gap that follows a frame touches the transmitter alone. -/
theorem enterGap_link_held {s : State} (h : s.mayTransmit = false) :
    s.enterGap.link = { s.link with tx := s.enterGap.link.tx } := by
  unfold State.enterGap State.ready
  rw [h]
  split <;> rfl

/-- All that QUIET entry leaves of a channel (R11). -/
theorem chan_enterQuiet (s : State) (c : Chan) :
    s.enterQuiet.chan c =
      { s.chan c with
        flushed := (s.chan c).flushed + BitVec.ofNat 32 (s.sched.waiting c), nextStart := none, nextHalf := none } := by
  cases c <;> rfl

/-- The state at the departure of the SLEEP reply, with the entry no longer pending (R10). -/
def unpended (s : State) : State := { s with tb := { s.tb with quietPending := false, quietDropped := false } }

/-- The SLEEP reply's departure with the conditions of R10 still met: QUIET. -/
theorem settle_quietEntered {s : State} (hdrop : s.tb.quietDropped = false) (hdev : s.tb.dev = .active) (hidle : s.allIdle = true) :
    let q := (unpended s).enterQuiet
    ∃ tx attn, s.quietEntryNow.enterGap.settle = { q with link := { q.link with tx := tx }, attn := attn } := by
  intro q
  have enters : s.quietEntryNow = q := if_pos ⟨hdrop, hdev, hidle⟩
  have held : q.mayTransmit = false := by
    simp [State.mayTransmit, State.clockRuns, q, State.enterQuiet]
  have heldGap : q.enterGap.mayTransmit = false := by rw [enterGap_eq]; exact held
  refine ⟨q.enterGap.link.tx, q.enterGap.settle.attn, ?_⟩
  rw [enters, State.settle_eq, ← State.settle_link, settle_link_held heldGap, enterGap_eq, enterGap_link_held held]

/-- Settles O25: the request by R10's three answers, and the departure of its reply by whether R10's conditions still hold. -/
theorem sleepEntersQuietWhenItsReplyLeaves : Obligations.SleepEntersQuietWhenItsReplyLeaves := by
  refine ⟨fun tag s hs => ?request, fun s cs n htx => ?_⟩
  case request =>
    change takeRequest 0x04 tag false (some ()) ownSleep s = _
    rw [takeRequest_taken _ _ _ _ _ _ hs]
    unfold ownSleep
    split_ifs <;> rfl
  intro idle
  have run : exec .quietEntry s = .next (s.elapse n).quietEntryNow.enterGap.settle := by
    simp only [exec, execQuietEntry, htx, done_eq]
  obtain ⟨_, _, _, hbuf⟩ := elapse_link_frame s n
  have hdrop : (s.elapse n).tb.quietDropped = s.tb.quietDropped := by rw [State.elapse_tb]
  have hdev : (s.elapse n).tb.dev = s.tb.dev := by rw [State.elapse_tb]
  have hidle : (s.elapse n).allIdle = true ↔ idle := by
    rw [allIdle_iff]
    simp only [Scheduling.elapse_state, idle]
  by_cases hall : s.tb.quietDropped = false ∧ s.tb.dev = .active ∧ idle
  · obtain ⟨hd, ha, hi⟩ := hall
    obtain ⟨tx, attn, ht⟩ := settle_quietEntered (hdrop.trans hd) (hdev.trans ha) (hidle.2 hi)
    refine ⟨_, run, ?_⟩
    rw [ht]
    refine ⟨rfl, rfl, fun _ _ _ => ⟨rfl, rfl, rfl, rfl, ?count, ?stage, rfl, rfl, rfl, hbuf, State.elapse_prot s n, fun c => ?_⟩,
      fun h => absurd ⟨hd, ha, hi⟩ h⟩
    case count => exact congrArg (·.count) (State.elapse_sup s n)
    case stage => exact congrArg (·.stage) (State.elapse_sup s n)
    have entered := chan_enterQuiet (unpended (s.elapse n)) c
    rw [show (unpended (s.elapse n)).chan c = _ from Scheduling.chan_elapse_eq s n c] at entered
    exact ⟨congrArg (·.nextStart) entered, congrArg (·.nextHalf) entered, congrArg (·.state) entered,
      congrArg (·.active) entered, congrArg (·.staged) entered, congrArg (·.z) entered, congrArg (·.slot) entered⟩
  · have stays : (s.elapse n).quietEntryNow =
        (unpended (s.elapse n)) :=
      if_neg (by rwa [hdrop, hdev, hidle])
    refine ⟨_, run, ?_⟩
    rw [stays, enterGap_eq]
    refine ⟨congrArg (·.quietPending) (State.settle_tb _), congrArg (·.quietDropped) (State.settle_tb _),
      fun hd ha hi => absurd ⟨hd, ha, hi⟩ hall, fun _ => ?_⟩
    simp only [State.settle_tb, State.settle_sched, State.settle_sup, State.settle_prot, State.settle_ch, State.chan_settle]
    refine ⟨rfl, hdev, congrArg (·.timeline) (State.elapse_sched s n), State.elapse_sup s n, State.elapse_prot s n, rfl, fun c => ?_⟩
    have kept : (unpended (s.elapse n)).chan c = _ := Scheduling.chan_elapse_eq s n c
    exact ⟨congrArg (·.state) kept, congrArg (·.nextStart) kept⟩

/-! ### The ends of frames, gaps and wakes (R161 to R164, R170, R173, R12, R160, R174) -/

/-- The characters of a frame begun under an autonomous sequence (R164, R179, R180). -/
def frameBegun (f : OutFrame) (n : Byte) : List Byte :=
  match f with
  | .reply tag payload _ => frameChars 0x80 tag payload
  | .event r => frameChars 0x81 n r.payload
  | .report _ payload => frameChars 0x82 n payload

/-- What a frame's departure brings (R10, R14, R162). -/
def effectOf (f : OutFrame) : ReplyEffect :=
  match f with
  | .reply _ _ e => e
  | _ => .nothing

/-- The autonomous sequence once a frame has begun (R164). -/
def seqAfter (f : OutFrame) (n : Byte) : Byte :=
  match f with
  | .reply _ _ _ => n
  | _ => n + 1

/-- From s to t the transmitter has begun a frame; nothing but the link and ATTN has changed. -/
structure Sends (s : State) (f : OutFrame) (t : State) : Prop where
  tx : t.link.tx =
    .sending (frameBegun f s.link.autoSeq) (effectOf f) (s.link.frameTicks (frameBegun f s.link.autoSeq))
  autoSeq : t.link.autoSeq = seqAfter f s.link.autoSeq
  rxBuf : t.link.rxBuf = s.link.rxBuf
  blocks : t = { s with link := t.link, attn := t.attn }

theorem begin_tx (l : Link) (f : OutFrame) :
    (l.begin f).tx = .sending (frameBegun f l.autoSeq) (effectOf f) (l.frameTicks (frameBegun f l.autoSeq)) := by
  cases f <;> rfl

theorem begin_autoSeq (l : Link) (f : OutFrame) : (l.begin f).autoSeq = seqAfter f l.autoSeq := by cases f <;> rfl

/-- A gap of no more ticks ends with the transmitter ready at once. -/
theorem exec_gapEnd_now {s : State} (h : s.link.tx = .gap 0) : exec .gapEnd s = .next s.ready.settle := by
  simp only [exec, execGapEnd, h, done_eq, State.elapse_zero]

/-- The transmitter is ready and the device may transmit: the link is. -/
theorem ready_link {s : State} (h : s.mayTransmit = true) : s.ready.link = s.link.ready := by
  simp [State.ready, h]

theorem settle_blocks (s : State) : s.ready.settle = { s with link := s.ready.settle.link, attn := s.ready.settle.attn } := by
  rw [State.settle_eq, ← State.settle_link]
  rfl

theorem mayTransmit_ready (s : State) : s.ready.mayTransmit = s.mayTransmit := rfl

/-- A record waits behind the frame that has begun while something of the instant is still to come, or while no place remains; else it
moves (R170, R173). -/
theorem settle_link_ready {s : State} {f : OutFrame} {rest : List OutFrame} (hm : s.mayTransmit = true) (hout : s.link.out = f :: rest) :
    s.ready.settle.link =
      if s.link.events.isEmpty || !s.ready.moreToCome then
        (if s.link.events.isEmpty then s.link.ready else s.link.ready.moveInto)
      else s.link.ready := by
  rw [State.settle_link, mayTransmit_ready, hm, ready_link hm, Bool.true_and]
  have hready : s.link.ready = { ({ s.link with out := rest } : Link).begin f with moveOwed := !s.link.events.isEmpty } := by
    simp [Link.ready, hout]
  have hev : s.link.ready.events = s.link.events := by rw [hready]; exact Link.begin_events _ _
  have hfin : s.link.ready.finish = if s.link.events.isEmpty then s.link.ready else s.link.ready.moveInto := by
    rw [Link.finish, hready]
    simp only [begin_tx]
    cases s.link.events.isEmpty <;> rfl
  rw [hev, hfin]

theorem sends_ready {s : State} {f : OutFrame} {rest : List OutFrame} (hm : s.mayTransmit = true) (hout : s.link.out = f :: rest) :
    Sends s f s.ready.settle := by
  have hready : s.link.ready = { ({ s.link with out := rest } : Link).begin f with moveOwed := !s.link.events.isEmpty } := by
    simp [Link.ready, hout]
  have htx : s.ready.settle.link.tx = s.link.ready.tx ∧ s.ready.settle.link.autoSeq = s.link.ready.autoSeq ∧
      s.ready.settle.link.rxBuf = s.link.ready.rxBuf := by
    rw [settle_link_ready hm hout]
    split_ifs
    · exact ⟨rfl, rfl, rfl⟩
    · rw [moveInto_eq]; exact ⟨rfl, rfl, rfl⟩
    · exact ⟨rfl, rfl, rfl⟩
  obtain ⟨htx, hseq, hbuf⟩ := htx
  rw [hready] at htx hseq hbuf
  exact ⟨htx.trans (begin_tx _ _), hseq.trans (begin_autoSeq _ _), hbuf.trans (Link.begin_rxBuf _ _), settle_blocks s⟩

/-- What the frame that has begun leaves of the two queues (R170, R173). -/
theorem queues_ready {s : State} {f : OutFrame} {rest : List OutFrame} (hm : s.mayTransmit = true) (hout : s.link.out = f :: rest) :
    (s.link.events = [] ∨ s.ready.moreToCome = true ∨ 24 ≤ rest.length →
      s.ready.settle.link.out = rest ∧ s.ready.settle.link.events = s.link.events) ∧
    ∀ r es, s.link.events = r :: es → s.ready.moreToCome = false → rest.length < 24 →
      s.ready.settle.link.out = rest ++ [.event r] ∧ s.ready.settle.link.events = es := by
  have hready : s.link.ready = { ({ s.link with out := rest } : Link).begin f with moveOwed := !s.link.events.isEmpty } := by
    simp [Link.ready, hout]
  have hout' : s.link.ready.out = rest := by rw [hready]; exact Link.begin_out _ _
  have hev : s.link.ready.events = s.link.events := by rw [hready]; exact Link.begin_events _ _
  rw [settle_link_ready hm hout]
  refine ⟨fun h => ?_, fun r es he hmore hroom => ?_⟩
  · split_ifs with h1 h2
    · exact ⟨hout', hev⟩
    · have full : ¬rest.length < outRoom := by
        have hne : s.link.events ≠ [] := by rwa [List.isEmpty_iff] at h2
        simp only [Bool.or_eq_true, h2, Bool.false_eq_true, false_or, Bool.not_eq_true'] at h1
        rcases h with h | h | h
        · exact absurd h hne
        · rw [h] at h1; cases h1
        · exact Nat.not_lt.2 h
      rw [Link.moveInto, hout', if_neg full]
      exact ⟨hout', hev⟩
    · exact ⟨hout', hev⟩
  · rw [he] at hev
    simp [he, hmore, Link.moveInto, Link.moveEvent, hev, hout', show rest.length < outRoom from hroom]

/-- With no frame waiting, the transmitter is IDLE at the end of its gap. -/
theorem ready_of_no_frame {s : State} (hout : s.link.out = []) : s.ready = s.modLink fun l => { l with tx := .idle } := by
  cases hm : s.mayTransmit <;> simp [State.ready, hm, State.modLink, Link.ready, hout]

/-- With no frame waiting and nothing more to come at the instant, the oldest record begins (R173). -/
theorem sends_record {s : State} {r : EventRecord} {es : List EventRecord} (hm : s.mayTransmit = true) (hout : s.link.out = [])
    (he : s.link.events = r :: es) (hmore : s.moreToCome = false) :
    Sends s (.event r) s.ready.settle ∧ s.ready.settle.link.out = [] ∧ s.ready.settle.link.events = es := by
  have more : s.ready.moreToCome = false := by rw [ready_of_no_frame hout]; exact hmore
  have hlink : s.ready.settle.link =
      ({ s.link with tx := .idle, events := es, batch := min s.link.batch es.length } : Link).begin (.event r) := by
    rw [State.settle_link, more, mayTransmit_ready, hm]
    simp [ready_of_no_frame hout, Link.finish, Link.beginWaiting, he, hout, Chan.all]
  have htx := congrArg (·.tx) hlink
  have hseq := congrArg (·.autoSeq) hlink
  refine ⟨⟨htx, hseq, ?_, settle_blocks s⟩, ?_, ?_⟩ <;> rw [hlink]
  · rfl
  · exact hout
  · rfl

/-! A wake (R12, R160). -/

/-- The state in which a wake takes the fault inputs: ACTIVE, the transmitter ready, the carrier restarted. -/
def woken (s : State) : State :=
  ({ s with tb := { s.tb with dev := .active, wakeLeft := none }, sup := s.sup.wake } : State).transmitAgain.carrierRestart

theorem transmitAgain_eq (s : State) : s.transmitAgain = { s with link := s.transmitAgain.link } := by
  unfold State.transmitAgain
  split <;> rfl

theorem woken_eq (s : State) :
    woken s =
      { ({ s with tb := { s.tb with dev := .active, wakeLeft := none }, sup := s.sup.wake } : State).carrierRestart with
        link := (woken s).link } := by
  unfold woken
  rw [transmitAgain_eq]
  rfl

theorem chan_woken (s : State) (c : Chan) : (woken s).chan c = (s.chan c).restart s.tb.now := by
  rw [woken_eq]
  exact PerChan.get_map _ _ _

/-- Settles O60: frames and gaps by what a ready transmitter begins, the wake by `sampled_sampleFaults`. -/
theorem framesGapsAndWakesEnd : Obligations.FramesGapsAndWakesEnd := by
  unfold Obligations.FramesGapsAndWakesEnd
  intro chars sends
  have hsends : ∀ {s f t}, Sends s f t → sends s f t := by
    rintro s f t ⟨htx, hseq, hbuf, hblocks⟩
    refine ⟨?_, ?_, hbuf, ?_, ?_, ?_, ?_, ?_⟩
    · rw [htx]
      cases f <;> rfl
    · rw [hseq]
      cases f <;> rfl
    all_goals rw [hblocks]
  refine ⟨fun s cs n htx => ?sent, fun s cs n => ⟨fun htx => ?reset, fun htx => ?quiet, fun r g htx => ?link⟩,
    fun s n htx => ?gap, fun s htx => ⟨fun hm => ?held, fun hm hout he => ?idle, fun f rest hm hout => ?frame,
      fun r es hm hout he hmore => ?record⟩, fun s n hrun hw hpins => ?wake⟩
  case sent =>
    simp only [exec, execFrameSent, htx, done_eq, State.frameGone, State.enterGap, (elapse_link_frame s n).2.1]
    rfl
  case reset | quiet | link =>
    simp only [exec, execFrameSent, execMessageReset, execQuietEntry, execSetLinkInForce, htx, State.frameGone]
  case gap => simp only [exec, execGapEnd, htx, done_eq]
  case held =>
    refine ⟨_, exec_gapEnd_now htx, ?_⟩
    rw [settle_link_held (mayTransmit_ready s ▸ hm)]
    simp [State.ready, hm]
  case idle =>
    refine ⟨_, exec_gapEnd_now htx, ?_⟩
    rw [State.settle_link, ready_of_no_frame hout]
    simp [Link.finish, Link.beginWaiting, Link.ready, he, hout]
  case frame =>
    obtain ⟨stay, move⟩ := queues_ready hm hout
    exact ⟨_, exec_gapEnd_now htx, hsends (sends_ready hm hout), stay, move⟩
  case record =>
    obtain ⟨hs, ho, hev⟩ := sends_record hm hout he hmore
    exact ⟨_, exec_gapEnd_now htx, hsends hs, ho, hev⟩
  case wake =>
    have run : exec .wakeComplete s = .next (woken (s.elapse n)).sampleFaults.settle := by
      simp only [exec, execWakeComplete, hrun, hw, done_eq]
      rfl
    have prot : (woken (s.elapse n)).prot = s.prot := (congrArg (·.prot) (woken_eq _)).trans (State.elapse_prot s n)
    have restarted : ∀ c, (woken (s.elapse n)).chan c = ((s.elapse n).chan c).restart (s.elapse n).tb.now := chan_woken _
    have state : ∀ c, ((woken (s.elapse n)).chan c).state = (s.chan c).state := fun c =>
      (congrArg (·.state) (restarted c)).trans (Scheduling.elapse_state s n c)
    obtain ⟨blocks, chan⟩ := sampled_sampleFaults (s := woken (s.elapse n)) fun c hc => by
      rw [prot] at hc
      rw [state, idle_iff]
      exact (hpins c).resolve_left (by simp [hc])
    have tb := (congrArg (·.tb) blocks).trans (congrArg (·.tb) (woken_eq _))
    refine ⟨_, run, ?_⟩
    simp only [State.settle_tb, State.settle_prot, State.settle_sup, State.chan_settle]
    refine ⟨congrArg (·.dev) tb, congrArg (·.wakeLeft) tb, congrArg (·.now) tb, congrArg (·.masterNext) tb,
      congrArg (·.masterNextSeq) tb, congrArg (·.count) tb, congrArg (·.up) tb, ?levels, ?sup, fun c => ?chan⟩
    case levels => rw [blocks, ← prot]; rfl
    case sup =>
      have sup : (woken (s.elapse n)).sampleFaults.sup = (s.elapse n).sup.wake := by rw [blocks, woken_eq]; rfl
      rw [sup, State.elapse_sup]
      rfl
    case chan =>
      have hc : (woken (s.elapse n)).sampleFaults.chan c =
          { (s.chan c).restart (s.elapse n).tb.now with
            gates := ((woken (s.elapse n)).sampleFaults.chan c).gates
            safe := ((woken (s.elapse n)).sampleFaults.chan c).safe } := by
        rw [chan]
        change ({ (woken (s.elapse n)).chan c with gates := _, safe := _ } : Channel) = _
        rw [restarted, Scheduling.chan_elapse_eq]
        rfl
      have now : (woken (s.elapse n)).sampleFaults.tb.now = (s.elapse n).tb.now := congrArg (·.now) tb
      rw [hc, now]
      refine ⟨rfl, rfl, rfl, fun hu => ?_⟩
      simp [Channel.restart, hu]

/-! ### The block with no command waiting (log 1) -/

theorem step_idle {s : State} (h : s.pending = []) : step s = .next s.idle := by simp [step, h]

/-- Something is drawn from every list that holds something. -/
theorem drawn_of_ne_nil (n : Nat) {is : List Instr} (h : is ≠ []) : ∃ k i, drawn n is = some (k, i) ∧ i ∈ is := by
  have hlt : Config.freeOrder n % is.length < is.length := Nat.mod_lt _ (List.length_pos_iff.2 h)
  exact ⟨_, _, by rw [drawn, List.getElem?_eq_getElem hlt]; rfl, List.getElem_mem hlt⟩

theorem drawn_nil (n : Nat) : drawn n [] = none := rfl

theorem mem_raiseIf {b : Bool} {i j : Instr} : i ∈ raiseIf b j ↔ b = true ∧ i = j := by
  cases b <;> simp [raiseIf]

theorem notBefore_self (t : Time) : notBefore t t = true := by simp [notBefore]

/-- Some channel closes with a report at this instant: so does a lowest one. -/
theorem exists_first_report {s : State} (h : Chan.all.any s.reportsNow = true) :
    ∃ c, s.reportsNow c = true ∧ ∀ x, chanCode x < chanCode c → s.reportsNow x = false := by
  simp only [Chan.all, List.any_cons, List.any_nil, Bool.or_false] at h
  cases h1 : s.reportsNow .m1
  case true => exact ⟨.m1, h1, fun x hx => by cases x <;> simp [chanCode] at hx⟩
  case false =>
  cases h2 : s.reportsNow .m2
  case true => exact ⟨.m2, h2, fun x hx => by cases x <;> simp [chanCode] at hx; exact h1⟩
  case false =>
  refine ⟨.m3, by simpa [h1, h2] using h, fun x hx => ?_⟩
  cases x <;> simp [chanCode] at hx
  · exact h1
  · exact h2

/-- A channel's period start that has been reached is due while the clock runs. -/
theorem periodStart_due {s : State} {c : Chan} (hclock : s.clockRuns = true)
    (h : reachedBy s.tb.now ((s.chan c).nextStart.map (·.1)) = true) : Instr.channelPeriodStart c ∈ s.due := by
  have own : Instr.channelPeriodStart c ∈ (s.chan c).due c s.tb.now s.tb.h := by simp [Channel.due, mem_raiseIf, h]
  have all : c ∈ Chan.all := by cases c <;> decide
  have hclockDue : Instr.channelPeriodStart c ∈ s.clockDue := by
    rw [State.clockDue, if_pos hclock]
    exact List.mem_append_left _ (List.mem_append_right _ (List.mem_flatMap.2 ⟨c, all, own⟩))
  simp [State.due, hclockDue]

theorem periodStart_due_of_report {s : State} {c : Chan} (h : s.reportsNow c = true) : Instr.channelPeriodStart c ∈ s.due := by
  simp only [State.reportsNow, Bool.and_eq_true, Channel.startsAt, beq_iff_eq] at h
  obtain ⟨⟨hclock, hstart⟩, _⟩ := h
  exact periodStart_due hclock (by rw [hstart]; exact notBefore_self _)

/-- An event of the transmitter waits for none of its instant. -/
theorem waits_transmitter {s : State} {t : Transmitter} {i : Instr} (h : i ∈ t.due) : s.waits i = false := by
  cases t with
  | idle => cases h
  | gap left =>
    obtain ⟨_, rfl⟩ := mem_raiseIf.1 h
    rfl
  | sending cs e left =>
    obtain ⟨_, rfl⟩ := mem_raiseIf.1 h
    cases e <;> rfl

/-- A due event that waits for none of its instant may be next. -/
theorem nextEvents_ne_nil {s : State} {i : Instr} (h : i ∈ s.due) (hw : s.waits i = false) : s.nextEvents ≠ [] :=
  List.ne_nil_of_mem (List.mem_filter.2 ⟨h, by rw [hw]; rfl⟩)

/-- Where a report is to be handed over now, some event may be next (R170): the transmitter's, or the lowest channel's close. -/
theorem nextEvents_of_report {s : State} (h : Chan.all.any s.reportsNow = true) : s.nextEvents ≠ [] := by
  obtain ⟨c, hc, hlow⟩ := exists_first_report h
  cases htx : s.link.tx.due with
  | cons i is =>
    have hi : i ∈ s.link.tx.due := by rw [htx]; exact List.mem_cons_self
    exact nextEvents_ne_nil (by simp [State.due, hi]) (waits_transmitter hi)
  | nil =>
    have first : Chan.all.any (fun x => chanCode x < chanCode c && s.reportsNow x) = false := by
      simp only [List.any_eq_false, Bool.and_eq_true, decide_eq_true_eq, not_and]
      exact fun x _ hx => by simp [hlow x hx]
    exact nextEvents_ne_nil (periodStart_due_of_report hc) (by simp [State.waits, State.closeWaits, first, htx])

/-- A conversion start is due while the clock runs alone. -/
theorem clockRuns_of_conversionStart {s : State} (h : Instr.conversionStart ∈ s.due) : s.clockRuns = true := by
  by_contra hclock
  have tx : Instr.conversionStart ∉ s.link.tx.due := by
    cases s.link.tx with
    | idle => exact List.not_mem_nil
    | gap left => simp [Transmitter.due, mem_raiseIf]
    | sending cs e left => cases e <;> simp [Transmitter.due, mem_raiseIf, ReplyEffect.row]
  have conversion : Instr.conversionStart ∉ s.conversionDue := by
    unfold State.conversionDue
    split <;> simp [mem_raiseIf]
  have wake : Instr.conversionStart ∉ s.wakeDue := by
    unfold State.wakeDue
    split <;> split <;> simp [mem_raiseIf]
  simp [State.due, State.clockDue, hclock, tx, conversion, wake, mem_raiseIf] at h

/-- Where no report is handed over now, an event that waits is a conversion start, and it waits for a period start. -/
theorem periodStartDue_of_waits {s : State} {i : Instr} (hr : ∀ c, s.reportsNow c = false) (h : s.waits i = true) :
    i = .conversionStart ∧ s.periodStartDue = true := by
  cases i <;> simp [State.waits, State.closeWaits, hr] at h
  exact ⟨rfl, h⟩

/-- Whatever is due, something may be next: the orders of R105, R108 and R170 hold back no instant. -/
theorem next_of_due {s : State} (h : s.due ++ s.takingDue ≠ []) : s.nextEvents ++ s.nextTaking ≠ [] := by
  by_cases hrep : Chan.all.any s.reportsNow = true
  · exact List.append_ne_nil_of_left_ne_nil (nextEvents_of_report hrep) _
  have hr : ∀ c, s.reportsNow c = false := fun c => by
    simp only [List.any_eq_true, not_exists, not_and, Bool.not_eq_true] at hrep
    exact hrep c (by cases c <;> decide)
  rw [State.nextTaking, if_neg hrep]
  by_cases ht : s.takingDue = []
  case neg => exact List.append_ne_nil_of_right_ne_nil _ ht
  obtain ⟨i, hi⟩ := List.exists_mem_of_ne_nil s.due (by simpa [ht] using h)
  refine List.append_ne_nil_of_left_ne_nil ?_ _
  cases hw : s.waits i
  case false => exact nextEvents_ne_nil hi hw
  obtain ⟨rfl, hstart⟩ := periodStartDue_of_waits hr hw
  have hclock := clockRuns_of_conversionStart hi
  simp only [State.periodStartDue, Bool.or_eq_true, List.any_eq_true] at hstart
  rcases hstart with hm | ⟨c, _, hc⟩
  · exact nextEvents_ne_nil (i := .masterPeriodStart) (by simp [State.due, State.clockDue, hclock, mem_raiseIf, hm]) rfl
  · exact nextEvents_ne_nil (periodStart_due hclock hc) (by simp [State.waits, State.closeWaits, hr])

/-- What may be next is due. -/
theorem mem_due_of_next {s : State} {i : Instr} (h : i ∈ s.nextEvents ++ s.nextTaking) : i ∈ s.due ++ s.takingDue := by
  rcases List.mem_append.1 h with h | h
  · exact List.mem_append_left _ (List.mem_of_mem_filter h)
  · refine List.mem_append_right _ ?_
    unfold State.nextTaking at h
    split at h
    · cases h
    · exact h

theorem next_nil {s : State} (hd : s.due = []) (ht : s.takingDue = []) : s.nextEvents ++ s.nextTaking = [] := by
  rw [List.eq_nil_iff_forall_not_mem]
  intro i hi
  have := mem_due_of_next hi
  rw [hd, ht] at this
  cases this

/-- An entry whose expiry instant ends is a channel's, with a tolerance that has passed (R113). -/
theorem expiring_entry {s : State} {i : Instr} (h : i ∈ s.expiring) :
    ∃ e c n, i = .late e.slot ∧ e ∈ s.sched.timeline ∧ e.owner = .chan c ∧ e.tol = some n ∧
      notBefore s.tb.now (addTicks e.due n) = true := by
  unfold State.expiring at h
  split at h
  case isFalse => cases h
  obtain ⟨e, he, rfl⟩ := List.mem_map.1 h
  obtain ⟨hmem, hexp⟩ := List.mem_filter.1 he
  unfold Entry.expiry at hexp
  split at hexp
  case h_1 c n ho ht => exact ⟨e, c, n, rfl, hmem, ho, ht, hexp⟩
  case h_2 => cases hexp

/-- The carrier's count and direction, each by its own test (R2). -/
theorem carrierAt_eq (h t : Nat) :
    carrierAt h t = (if t % (2 * h) < h then t % (2 * h) else 2 * h - t % (2 * h), decide (t % (2 * h) < h)) := by
  unfold carrierAt
  split_ifs with hu <;> simp [hu]

/-- Settles O3: a due event or taking is drawn by `next_of_due`, an expiring entry by `expiring_entry`, and else one tick passes. -/
theorem idleRaisesWhatIsDueOrTicks : Obligations.IdleRaisesWhatIsDueOrTicks := by
  refine ⟨fun s hp hd => ?due, fun s hp hd ht he => ?late, fun s hp hd ht he => ?tick⟩
  case due =>
    obtain ⟨k, i, hdrawn, hi⟩ := drawn_of_ne_nil s.fresh (next_of_due hd)
    have hidle : s.idle = s.raise i (decide (s.nextEvents.length ≤ k)) := by simp only [State.idle, hdrawn]
    refine ⟨_, i, (step_idle hp).trans (congrArg _ hidle), mem_due_of_next hi, ?_⟩
    cases decide (s.nextEvents.length ≤ k) <;> exact ⟨congrArg (· ++ [i]) hp, rfl, rfl, rfl⟩
  case late =>
    obtain ⟨k, i, hdrawn, hi⟩ := drawn_of_ne_nil s.fresh he
    have hidle : s.idle = s.raise i false := by simp only [State.idle, next_nil hd ht, drawn_nil, hdrawn]
    obtain ⟨e, c, n, rfl, hmem, ho, htol, hnb⟩ := expiring_entry hi
    exact ⟨_, e, c, n, (step_idle hp).trans (congrArg _ hidle), congrArg (· ++ [Instr.late e.slot]) hp, hmem, ho, htol, hnb, rfl, rfl,
      rfl, rfl⟩
  case tick =>
    have hidle : s.idle = s.instantOver.pass 1 := by
      simp only [State.idle, next_nil hd ht, drawn_nil, he]
      rfl
    have power : (s.instantOver.pass 1).power = s.power.elapse 1 := congrArg (Power.elapse · 1) s.instantOver_power
    have sched : (s.instantOver.pass 1).sched = s.sched.elapse 1 := congrArg (Scheduler.elapse · 1) s.instantOver_sched
    have tb : (s.instantOver.pass 1).tb = s.tb.elapse s.clockRuns 1 := by
      rw [← s.clockRuns_instantOver, ← s.instantOver_tb]
      rfl
    have ch : (s.instantOver.pass 1).ch = if s.clockRuns then s.ch.map (·.age (addTicks s.tb.now 1)) else s.ch := by
      rw [← s.clockRuns_instantOver, ← s.instantOver_tb, ← s.instantOver_ch]
      rfl
    refine ⟨_, s.instantOver.link, (step_idle hp).trans (congrArg _ hidle), s.instantOver_pending.trans hp, s.instantOver_prot,
      s.instantOver_sup, fun h => ?still, fun _ _ => rfl, ?link, power.trans ?power, sched, fun hrun hdev => tb.trans ?clock,
      fun hout => ⟨ch.trans ?held, tb.trans ?waits⟩, fun c => ?chan⟩
    case still =>
      rcases h with h | h
      · rw [instantOver_held h]
      · rw [s.instantOver_of_finished h]
    case link =>
      rw [State.pass_link]
      cases s.instantOver.link.tx <;> rfl
    case power => cases hph : s.power.phase <;> simp only [Power.elapse, hph]
    case clock =>
      have hclock : s.clockRuns = true := by simp [State.clockRuns, State.isRunning, hrun, hdev]
      rw [hclock]
      simp only [Timebase.elapse, if_true, carrierAt_eq]
      rfl
    case held | waits =>
      have hclock : s.clockRuns = false := by
        rcases hout with h | h <;> simp [State.clockRuns, State.isRunning, h]
      simp only [hclock, Timebase.elapse, Bool.false_eq_true, if_false]
    case chan =>
      have hc : (s.instantOver.pass 1).chan c = s.chan c ∨
          (s.instantOver.pass 1).chan c = (s.chan c).age (addTicks s.tb.now 1) := by
        unfold State.chan
        rw [ch]
        cases s.clockRuns
        · exact .inl rfl
        · exact .inr (PerChan.get_map _ _ _)
      rcases hc with hc | hc <;> rw [hc]
      · exact ⟨rfl, fun _ => rfl⟩
      · refine ⟨rfl, fun x => ?_⟩
        cases x <;> rfl

/-! ### The state after a reset meets the invariants -/

/-- Settles O12, field by field: the counters and the queues are those of a reset's books, and the rest stands in `State.reset`. -/
theorem resetMeetsEveryInvariant : Obligations.ResetMeetsEveryInvariant := by
  have chan : ∀ c, State.reset.chan c = .reset := fun c => by cases c <;> rfl
  have gate : ∀ x, Channel.reset.gates.get x = .reset := fun x => by cases x <;> rfl
  refine ⟨fun c x => ?apart, Scheduling.countersAgree_reset, ?queues, List.nodup_nil, rfl, fun h => absurd rfl h, ?settings,
    ?aux, ?supervision, fun c => ?vectors, fun c => ?fit⟩
  case apart =>
    rw [chan, gate]
    decide
  case queues =>
    rw [Scheduling.queuesBounded_iff]
    exact Scheduling.bounded_reset.queues
  case settings =>
    unfold State.settingsInRange
    decide
  case aux => exact ⟨by decide, rfl, by decide⟩
  case supervision =>
    refine ⟨by decide, by decide, by decide, by decide, by decide, by decide, ?_, ?_⟩ <;> exact fun _ h => by cases h
  case vectors =>
    rw [chan]
    refine ⟨?_, fun _ h => by cases h⟩
    unfold VectorMod.inRange
    decide
  case fit =>
    rw [chan]
    refine ⟨⟨fun x => ?_, rfl, rfl⟩, by decide, by decide⟩
    rw [gate]
    exact ⟨rfl, rfl, rfl, rfl⟩

end Sys2Proof.DeviceLife

/-!
The receiver (ch.10 10.3): what it makes of an arriving character and of a timeout, as `State.receive` of the characters it has kept, with
the arrivals that Table 10-2 names spelled out by what `scan` finds in them.
-/

namespace Sys2Proof.Receiving

open Sys2Proof Sys2Proof.Machine

/-! ### What the receiver finds (R165) -/

/-- Characters without a marker are passed over. -/
theorem scan_unmarked {cs : List Byte} (h : (0xD5 : Byte) ∉ cs) : scan 0 cs = ([], []) := by
  induction cs with
  | nil => rfl
  | cons c cs ih =>
    simp only [List.mem_cons, not_or] at h
    obtain ⟨hc, hcs⟩ := h
    rw [scan, if_neg fun e => hc e.symm, ih hcs]

/-- A frame that is neither complete nor too long is kept from its marker on. -/
theorem scan_partial {cs : List Byte} (h : partialFrame cs) : scan 0 (0xD5 :: cs) = ([], 0xD5 :: cs) := by
  have hcol : collected cs = .incomplete := by
    rcases collected_cases cs with ⟨e, _⟩ | ⟨len, rest, rfl, hl, _⟩ | ⟨len, type, tag, payload, check, rest, rfl, _, hn, _⟩
    · exact e
    · exact absurd (h len rest rfl).1 (by omega)
    · have := (h len _ rfl).2
      simp at this
      omega
  rw [scan, if_pos (show (0xD5 : Byte) = marker from rfl), hcol]

/-- A frame that fails is rescanned from the character after its marker. -/
theorem scan_failed {cs : List Byte} {f : LinkFailure} (h : collected cs = .failed f) :
    scan 0 (0xD5 :: cs) = (.error f :: (scan 0 cs).1, (scan 0 cs).2) := by
  rw [scan, if_pos (show (0xD5 : Byte) = marker from rfl), h]

theorem collected_tooLong {len : Byte} (cs : List Byte) (h : 56 < len.toNat) : collected (len :: cs) = .failed .length := by
  simp [collected, payloadRoom, h]

theorem collected_badCrc {len type tag check : Byte} {payload : List Byte} (hp : payload.length ≤ 56)
    (hlen : len.toNat = payload.length) (hc : check ≠ crc (len :: type :: tag :: payload)) :
    collected (len :: type :: tag :: (payload ++ [check])) = .failed .crc := by
  simp [collected, payloadRoom, hlen, Nat.not_lt.2 hp, hc.symm]

/-! ### What the receiver does with what it finds (R165, R166, R168) -/

theorem rxItem_buffered {s : State} (f : Frame) (h : s.link.rxBuf.length < 2) :
    s.rxItem (.frame f) = s.modLink fun l => { l with rxBuf := l.rxBuf ++ [f] } := if_pos h

theorem rxItem_overrun {s : State} (f : Frame) (h : ¬s.link.rxBuf.length < 2) :
    s.rxItem (.frame f) = s.queueEvent .linkError none 3 := if_neg h

/-- The receiver is left with kept characters and a timeout. -/
def keeping (u : State) (kept : List Byte) (left : Nat) : State :=
  { u with link := { u.link with rx := kept, rxLeft := if kept = [] then 0 else left } }

/-- Examining characters from HUNTING on is the relation of R165, and leaves what it keeps. -/
theorem receive_receives (s : State) (cs : List Byte) (left : Nat) :
    ∃ kept u, Receives s cs kept u ∧ s.receive cs left = keeping u kept left := by
  refine ⟨_, _, scan_receives cs s, ?_⟩
  simp only [State.receive, keeping, State.modLink, List.isEmpty_iff]

theorem receive_eq {s : State} {cs kept : List Byte} {items : List RxItem} (left : Nat) (h : scan 0 cs = (items, kept)) :
    s.receive cs left = keeping (items.foldl State.rxItem s) kept left := by
  simp only [State.receive, h, keeping, State.modLink, List.isEmpty_iff]

/-- Characters that hold no marker leave the receiver HUNTING. -/
theorem receive_unmarked {s : State} {cs : List Byte} (left : Nat) (h : (0xD5 : Byte) ∉ cs) :
    s.receive cs left = s.modLink fun l => { l with rx := [], rxLeft := 0 } := receive_eq left (scan_unmarked h)

/-! ### The rows (R165, R166) -/

theorem exec_arrival {s : State} (ch : Byte) (hrun : s.isRunning = true) :
    exec (.characterArrival ch false) s =
      .next ((s.wakeBegins ch).receive (s.link.rx ++ [ch]) (40 * s.link.rate.bitTicks)).settle := by
  simp only [exec, execCharacterArrival, hrun, if_true, Bool.false_eq_true, if_false, done_eq]
  rfl

theorem exec_arrival_framing {s : State} (ch : Byte) (hrun : s.isRunning = true) (hrx : s.link.rx ≠ []) :
    exec (.characterArrival ch true) s =
      .next ((s.queueEvent .linkError none 1).receive s.link.rx.tail (40 * s.link.rate.bitTicks)).settle := by
  simp only [exec, execCharacterArrival, hrun, if_true, List.isEmpty_iff, hrx, if_false, done_eq]
  rfl

theorem exec_timeout {s : State} (hrun : s.isRunning = true) (hrx : s.link.rx ≠ []) (hleft : s.link.rxLeft = 0) :
    exec .frameTimeout s = .next ((s.queueEvent .linkError none 2).receive s.link.rx.tail 0).settle := by
  have hc : (s.isRunning && !s.link.rx.isEmpty) = true := by simp [hrun, hrx]
  simp only [exec, execFrameTimeout, hc, if_true, hleft, State.elapse_zero, done_eq]
  rfl

/-- Within a frame, or outside QUIET, no wake begins. -/
theorem wakeBegins_none {s : State} (ch : Byte) (h : s.tb.dev ≠ .quiet ∨ s.link.rx ≠ [] ∨ ch ≠ 0xD5) : s.wakeBegins ch = s := by
  unfold State.wakeBegins
  rw [if_neg]
  rintro ⟨hq, _, hrx, hm⟩
  exact h.elim (· hq) fun h => h.elim (· hrx) (· hm)

/-- Settles O59: every arrival by `receive_receives`, the single ones by what `scan` finds. -/
theorem charactersAreHuntedCollectedAndTimedOut : Obligations.CharactersAreHuntedCollectedAndTimedOut := by
  unfold Obligations.CharactersAreHuntedCollectedAndTimedOut
  intro keeps
  refine ⟨fun s ch hrun => ?every, fun s ch hrun hdev hrx hch => ?hunted, fun s hrun hdev hrx => ?marker,
    fun s hrun hdev hw hrx => ?wake, fun s ch cs hrun hrx hpart => ?kept,
    fun s ch type tag payload hrun hp hframe hrx => ?complete, fun s ch hrun hrx hl hch => ?tooLong,
    fun s ch len type tag payload hrun hp hlen hrx hcrc hno hch => ?badCrc, fun s ch hrun hrx => ?framingHunting,
    fun s ch hrun hrx hno => ?framing, fun s hrun hrx hno hleft => ?timeout⟩
  case every =>
    intro bits woken
    have hwoken : s.wakeBegins ch = woken := rfl
    refine ⟨?_, fun hrx => ?_, fun hrx hleft => ?_⟩
    · obtain ⟨kept, u, hr, he⟩ := receive_receives woken (s.link.rx ++ [ch]) bits
      exact ⟨kept, u, hr, by rw [exec_arrival ch hrun, hwoken, he]; rfl⟩
    · obtain ⟨kept, u, hr, he⟩ := receive_receives (s.queueEvent .linkError none 1) s.link.rx.tail bits
      exact ⟨kept, u, hr, by rw [exec_arrival_framing ch hrun hrx, he]; rfl⟩
    · obtain ⟨kept, u, hr, he⟩ := receive_receives (s.queueEvent .linkError none 2) s.link.rx.tail 0
      exact ⟨kept, u, hr, by rw [exec_timeout hrun hrx hleft, he]; rfl⟩
  case hunted =>
    rw [exec_arrival ch hrun, wakeBegins_none ch (.inl hdev), hrx, receive_unmarked _ (by simpa using hch.symm)]
    rfl
  case marker =>
    rw [exec_arrival 0xD5 hrun, wakeBegins_none _ (.inl hdev), hrx, List.nil_append,
      receive_eq _ (scan_partial (cs := []) fun _ _ h => by cases h)]
    rfl
  case wake =>
    have hwoken : s.wakeBegins 0xD5 = { s with tb := { s.tb with wakeLeft := some 16000 } } := if_pos ⟨hdev, hw, hrx, rfl⟩
    rw [exec_arrival 0xD5 hrun, hwoken, hrx, List.nil_append,
      receive_eq _ (scan_partial (cs := []) fun _ _ h => by cases h)]
    rfl
  case kept =>
    have hne : s.link.rx ≠ [] := by rw [hrx]; exact List.cons_ne_nil _ _
    rw [exec_arrival ch hrun, wakeBegins_none ch (.inr (.inl hne)), hrx, List.cons_append, receive_eq _ (scan_partial hpart)]
    rfl
  case complete =>
    rw [exec_arrival ch hrun, wakeBegins_none ch (.inr (.inl hrx)), hframe,
      receive_eq _ (SerialLink.receiverReadsBackEveryFrame type tag payload hp)]
    simp only [List.foldl_cons, List.foldl_nil]
    split_ifs with hroom
    · rw [rxItem_buffered _ hroom]
      rfl
    · rw [rxItem_overrun _ hroom]
      rfl
  case tooLong =>
    have hne : s.link.rx ≠ [] := by rw [hrx]; exact List.cons_ne_nil _ _
    have hscan := scan_failed (collected_tooLong [] hl)
    rw [scan_unmarked (cs := [ch]) (by simpa using hch.symm)] at hscan
    rw [exec_arrival ch hrun, wakeBegins_none ch (.inr (.inl hne)), hrx, List.cons_append, List.nil_append, receive_eq _ hscan]
    rfl
  case badCrc =>
    have hne : s.link.rx ≠ [] := by rw [hrx]; exact List.cons_ne_nil _ _
    have hscan := scan_failed (collected_badCrc hp hlen hcrc)
    rw [scan_unmarked (cs := len :: type :: tag :: (payload ++ [ch])) ?unmarked] at hscan
    case unmarked =>
      have hl : (0xD5 : Byte) ≠ len := by
        rintro rfl
        simp at hlen
        omega
      simp only [List.mem_cons, not_or] at hno
      obtain ⟨htype, htag, hpayload⟩ := hno
      simp only [List.mem_cons, List.mem_append, List.not_mem_nil, or_false, not_or]
      exact ⟨hl, htype, htag, hpayload, hch.symm⟩
    rw [exec_arrival ch hrun, wakeBegins_none ch (.inr (.inl hne)), hrx]
    simp only [List.cons_append]
    rw [receive_eq _ hscan]
    rfl
  case framingHunting =>
    simp only [exec, execCharacterArrival, hrun, hrx, if_true]
    rfl
  case framing =>
    rw [exec_arrival_framing ch hrun hrx, receive_unmarked _ hno]
  case timeout => rw [exec_timeout hrun hrx hleft, receive_unmarked _ hno]

end Sys2Proof.Receiving

/-!
The settings (ch.1 1.3 and 1.4, ch.2 2.2): CARRIER and ACTIVATE by their checks in order and by what they write.
-/

namespace Sys2Proof.Settings

open Sys2Proof Sys2Proof.Machine Sys2Proof.Motor Sys2Proof.DeviceLife

/-! ### CARRIER (R4, R5) -/

theorem carrier_owner (tag a0 a1 b0 b1 : Byte) {s : State} (hs : s.takes) :
    exec (.carrier tag [a0, a1, b0, b1]) s =
      .next ((ownCarrier (u16 a0 a1, u16 b0 b1) s).1.replied 0x10 tag (ownCarrier (u16 a0 a1, u16 b0 b1) s).2) :=
  takeRequest_taken 0x10 tag false (u16 a0 a1, u16 b0 b1) ownCarrier s hs

/-- A channel whose active record, where it has one in force, fits a new H and D (R4). -/
def Suits (k : Channel) (h d : Nat) : Prop :=
  k.state = .stopped →
    k.active.offset < 2 * h ∧ k.active.window ≤ h / 2 ∧ (k.active.stretch = true → d + k.active.lead ≤ k.active.window)

/-- The test of the first channel that does not fit. -/
theorem conflicts_iff (k : Channel) (h d : Nat) :
    (k.state == .stopped && !carrierFits k.active h d) = true ↔ ¬Suits k h d := by
  unfold Suits carrierFits
  by_cases hst : k.state = .stopped <;> cases k.active.stretch <;> simp [hst]
  all_goals omega

theorem carrierConflict_of_first {s : State} {h d : Nat} {c : Chan} (hc : ¬Suits (s.chan c) h d)
    (hlow : ∀ x, chanCode x < chanCode c → Suits (s.chan x) h d) : s.carrierConflict h d = some c := by
  have hit : ∀ x, ¬Suits (s.chan x) h d → ((s.chan x).state == .stopped && !carrierFits (s.chan x).active h d) = true :=
    fun x => (conflicts_iff _ h d).2
  have miss : ∀ x, Suits (s.chan x) h d → ((s.chan x).state == .stopped && !carrierFits (s.chan x).active h d) = false :=
    fun x hx => Bool.eq_false_iff.2 fun ht => (conflicts_iff _ h d).1 ht hx
  unfold State.carrierConflict Chan.all
  cases c with
  | m1 => simp [List.find?, hit _ hc]
  | m2 => simp [List.find?, miss .m1 (hlow .m1 (by decide)), hit _ hc]
  | m3 => simp [List.find?, miss .m1 (hlow .m1 (by decide)), miss .m2 (hlow .m2 (by decide)), hit _ hc]

theorem carrierConflict_none {s : State} {h d : Nat} (hfits : ∀ c, Suits (s.chan c) h d) : s.carrierConflict h d = none := by
  rw [State.carrierConflict, List.find?_eq_none]
  exact fun c _ ht => (conflicts_iff _ h d).1 ht (hfits c)

section

variable {s : State} {h d : Nat}

theorem ownCarrier_half (hh : h < 1000 ∨ 10000 < h) : ownCarrier (h, d) s = (s, badValue 1) := if_pos hh

theorem ownCarrier_dead (h1 : 1000 ≤ h) (h2 : h ≤ 10000) (hd : 255 < d) : ownCarrier (h, d) s = (s, badValue 2) := by
  rw [ownCarrier, if_neg (by simp only; omega), if_pos hd]

theorem ownCarrier_busy (h1 : 1000 ≤ h) (h2 : h ≤ 10000) (hd : d ≤ 255) (hi : s.allIdle = false) :
    ownCarrier (h, d) s = (s, wrongState) := by
  rw [ownCarrier, if_neg (by simp only; omega), if_neg (Nat.not_lt.2 hd), hi]
  rfl

theorem ownCarrier_idle (h1 : 1000 ≤ h) (h2 : h ≤ 10000) (hd : d ≤ 255) (hi : s.allIdle = true) :
    ownCarrier (h, d) s =
      match s.carrierConflict h d with
      | some c => (s, conflict c)
      | none =>
        (((({ s with tb := { s.tb with h := h, d := d } } : State).modSched fun q =>
          { q with aux := q.aux.map fun a => { a with instant := a.instant % (2 * h) } }).flushAll.carrierRestart), ok) := by
  rw [ownCarrier, if_neg (by simp only; omega), if_neg (Nat.not_lt.2 hd), hi]
  rfl

end

theorem chan_carrierRestart (s : State) (c : Chan) : s.carrierRestart.chan c = (s.chan c).restart s.tb.now :=
  PerChan.get_map _ _ _

/-- What a carrier restart writes of a channel (R6). -/
theorem restart_eq (k : Channel) (now : Time) :
    k.restart now =
      { k with
        seq := 0
        latest := none
        nextStart := if k.state = .unconfigured then none else some (addTicks now k.active.offset, 0)
        nextHalf := if k.state = .unconfigured then none else some { time := addTicks now k.active.offset, peak := false } } := by
  simp only [Channel.restart, beq_iff_eq]

/-- Settles O30: the checks in R4's order, and the restart of R5 block by block. -/
theorem carrierChecksThenRestarts : Obligations.CarrierChecksThenRestarts := by
  intro tag a0 a1 b0 b1 s hs h d idle fits
  rw [carrier_owner tag a0 a1 b0 b1 hs]
  change (_ → Host.Outcome.next ((ownCarrier (h, d) s).1.replied 0x10 tag (ownCarrier (h, d) s).2) = _) ∧ _
  refine ⟨fun hh => ?half, fun h1 h2 hd => ?dead, fun h1 h2 hd hi => ?busy, fun h1 h2 hd hi c hc hlow => ?conflict,
    fun h1 h2 hd hi hfits => ?restarts⟩
  case half => rw [ownCarrier_half hh]; rfl
  case dead => rw [ownCarrier_dead h1 h2 hd]; rfl
  case busy => rw [ownCarrier_busy h1 h2 hd (Bool.eq_false_iff.2 fun ha => hi ((allIdle_iff s).1 ha))]; rfl
  case conflict =>
    rw [ownCarrier_idle h1 h2 hd ((allIdle_iff s).2 hi), carrierConflict_of_first hc hlow]
    rfl
  case restarts =>
    rw [ownCarrier_idle h1 h2 hd ((allIdle_iff s).2 hi), carrierConflict_none hfits]
    refine ⟨_, rfl, rfl, ?sched, fun c => ?chan, rfl, rfl, rfl, rfl, rfl⟩
    case sched =>
      change ({ s.sched with timeline := [], aux := (s.sched.aux.map _).map _ } : Scheduler) = _
      rw [List.map_map]
      rfl
    case chan =>
      rw [chan_carrierRestart, restart_eq]
      cases c <;> rfl

/-! ### ACTIVATE (R20 to R22) -/

theorem activate_owner (tag : Byte) (c : Chan) {s : State} (hs : s.takes) :
    exec (.activate tag [chanByte c]) s =
      .next ((ownActivate (chanCode c) s).1.replied 0x21 tag (ownActivate (chanCode c) s).2) := by
  change takeRequest 0x21 tag false (some (chanByte c).toNat) ownActivate s = _
  rw [takeRequest_taken _ _ _ _ _ _ hs, chanByte_toNat]

section

variable {s : State} {c : Chan}

theorem ownActivate_wrongState (h : (s.chan c).state = .calibrating ∨ (s.chan c).state = .tripped) :
    ownActivate (chanCode c) s = (s, wrongState) := by
  rw [ownActivate, onChannel_chanCode]
  exact if_pos h

theorem ownActivate_refused {n : Nat} (h : ¬((s.chan c).state = .calibrating ∨ (s.chan c).state = .tripped))
    (hf : activateFailing (s.chan c).staged s.tb.h s.tb.d = some n) : ownActivate (chanCode c) s = (s, badValue n) := by
  rw [ownActivate, onChannel_chanCode]
  simp only [if_neg h, hf]

theorem ownActivate_passed (h : ¬((s.chan c).state = .calibrating ∨ (s.chan c).state = .tripped))
    (hf : activateFailing (s.chan c).staged s.tb.h s.tb.d = none) :
    ownActivate (chanCode c) s =
      if (s.chan c).state.driving then
        if (s.chan c).active.sameNonLive (s.chan c).staged then
          (s.modCh c (fun x => { x with live := some x.staged.liveValues }), ok)
        else (s, wrongState)
      else (s.activateIdle c, ok) := by
  rw [ownActivate, onChannel_chanCode]
  simp only [if_neg h, hf]

end

section

variable {r : ConfigRecord} {h d : Nat}

theorem activateFailing_offset (ho : ¬r.offset < 2 * h) : activateFailing r h d = some 2 := if_pos (Nat.not_lt.1 ho)

theorem activateFailing_window (ho : r.offset < 2 * h) (hw : ¬r.window ≤ h / 2) : activateFailing r h d = some 4 := by
  rw [activateFailing, if_neg (Nat.not_le.2 ho), if_pos (Nat.not_le.1 hw)]

theorem activateFailing_stretch (ho : r.offset < 2 * h) (hw : r.window ≤ h / 2)
    (hg : ¬(r.stretch = true → d + r.lead ≤ r.window)) : activateFailing r h d = some 4 := by
  rw [activateFailing, if_neg (Nat.not_le.2 ho), if_neg (Nat.not_lt.2 hw), if_pos]
  simpa only [Classical.not_imp, Nat.not_le] using hg

theorem activateFailing_ages (ho : r.offset < 2 * h) (hw : r.window ≤ h / 2)
    (hg : r.stretch = true → d + r.lead ≤ r.window) (ha : r.s2 ≤ r.s1) : activateFailing r h d = some 10 := by
  rw [activateFailing, if_neg (Nat.not_le.2 ho), if_neg (Nat.not_lt.2 hw), if_neg fun ⟨hs, hl⟩ => Nat.not_lt.2 (hg hs) hl, if_pos ha]

theorem activateFailing_none (ho : r.offset < 2 * h) (hw : r.window ≤ h / 2)
    (hg : r.stretch = true → d + r.lead ≤ r.window) (ha : r.s1 < r.s2) : activateFailing r h d = none := by
  rw [activateFailing, if_neg (Nat.not_le.2 ho), if_neg (Nat.not_lt.2 hw), if_neg fun ⟨hs, hl⟩ => Nat.not_lt.2 (hg hs) hl,
    if_neg (Nat.not_le.2 ha)]

end

/-! The new pairing (R8, log 18). -/

/-- The period start of an offset that belongs to the master period start i places from the current one. -/
def pairedStart (s : State) (offset : Nat) (i : Int) : Time × Seq :=
  (addTicks (s.tb.masterAt s.masterDue i).1 offset, (s.tb.masterAt s.masterDue i).2)

/-- A period start that a channel can be paired with. -/
def CanPair (s : State) (k : Channel) (offset : Nat) (i : Int) : Prop :=
  later (pairedStart s offset i).1 s.tb.now = true ∧ (k.latest = none ∨ 0 < ((pairedStart s offset i).2 - k.seq).toInt)

/-- The first index of the pairing: the master period start before the current one, where there is one. -/
def firstIndex (s : State) : Int := if s.tb.hasPrevious s.masterDue then -1 else 0

/-- The indices of the pairing, in order. -/
def indices (s : State) : List Int := if s.tb.hasPrevious s.masterDue then [-1, 0, 1, 2] else [0, 1, 2]

theorem mem_indices_iff (s : State) (i : Int) : i ∈ indices s ↔ firstIndex s ≤ i ∧ i ≤ 2 := by
  unfold indices firstIndex
  split_ifs <;> simp <;> omega

theorem indices_sorted (s : State) : (indices s).Pairwise (· < ·) := by
  unfold indices
  split_ifs <;> decide

/-- In a list in increasing order the first member with a property is the least one. -/
theorem find?_of_least {p : Int → Bool} {is : List Int} {i : Int} (hs : is.Pairwise (· < ·)) (hi : i ∈ is) (hp : p i = true)
    (hlow : ∀ j ∈ is, j < i → p j = false) : is.find? p = some i := by
  induction is with
  | nil => cases hi
  | cons a is ih =>
    obtain ⟨ha, hs'⟩ := List.pairwise_cons.1 hs
    rcases List.mem_cons.1 hi with rfl | hmem
    · exact List.find?_cons_of_pos hp
    · rw [List.find?_cons_of_neg (by rw [hlow a List.mem_cons_self (ha i hmem)]; exact Bool.false_ne_true)]
      exact ih hs' hmem fun j hj => hlow j (List.mem_cons_of_mem _ hj)

theorem nextPairing_of_least {s : State} {k : Channel} {offset : Nat} {i : Int} (h1 : firstIndex s ≤ i) (h2 : i ≤ 2)
    (hi : CanPair s k offset i) (hlow : ∀ j, firstIndex s ≤ j → j < i → ¬CanPair s k offset j) :
    s.nextPairing k offset = some (pairedStart s offset i) := by
  have test : ∀ j, (later (pairedStart s offset j).1 s.tb.now &&
      (k.latest.isNone || decide (0 < ((pairedStart s offset j).2 - k.seq).toInt))) = true ↔ CanPair s k offset j := fun j => by
    simp [CanPair]
  change ((indices s).map (pairedStart s offset)).find? _ = _
  rw [List.find?_map, find?_of_least (indices_sorted s) ((mem_indices_iff s i).2 ⟨h1, h2⟩) ((test i).2 hi) ?least]
  · rfl
  · exact fun j hj hlt => Bool.eq_false_iff.2 fun ht => hlow j ((mem_indices_iff s j).1 hj).1 hlt ((test j).1 ht)

/-- What an accepted ACTIVATE leaves of its channel (R21). -/
theorem chan_activateIdle (s : State) (c : Chan) :
    (s.activateIdle c).chan c =
      let k := s.chan c
      let copied : Channel :=
        { k with
          active := k.staged, live := none, slot := if k.active.kind = k.staged.kind then k.slot else none, state := .stopped }
      if k.state = .unconfigured ∨ k.active.offset ≠ k.staged.offset then
        copied.rePair (s.nextPairing k k.staged.offset) s.tb.h
      else copied := by
  unfold State.activateIdle
  simp only [Bool.or_eq_true, beq_iff_eq, bne_iff_ne]
  split_ifs <;> simp

theorem activateIdle_frame (s : State) (c : Chan) :
    s.sameChannelsBut (s.activateIdle c) c ∧ s.activateIdle c = { s with ch := (s.activateIdle c).ch } := by
  unfold State.activateIdle
  simp only
  split
  · exact ⟨fun x hx => by rw [State.chan_modCh_other _ _ hx, State.chan_modCh_other _ _ hx], rfl⟩
  · exact ⟨fun x hx => State.chan_modCh_other _ _ hx, rfl⟩

/-- The half-period point to come after a new pairing (R7, log 18). -/
theorem rePair_nextHalf (k : Channel) (x : Time × Seq) (h : Nat) :
    (k.rePair (some x) h).nextHalf =
      match k.nextHalf, k.latest with
      | some p, some t =>
        if p.time = (if p.peak then addTicks t h else t) then some p else some { time := x.1, peak := false }
      | _, _ => some { time := x.1, peak := false } := by
  unfold Channel.rePair HalfPoint.ofPeriod
  cases k.nextHalf <;> cases k.latest <;> simp

/-- Settles O35: the checks in R20's order, the live hold of R22, and the copy of R21 with its pairing. -/
theorem activateChecksThenCopies : Obligations.ActivateChecksThenCopies := by
  intro tag c s hs k r run bad state o w g
  have hrun : run = .next ((ownActivate (chanCode c) s).1.replied 0x21 tag (ownActivate (chanCode c) s).2) :=
    activate_owner tag c hs
  have refused : ∀ n, ¬state → activateFailing r s.tb.h s.tb.d = some n → run = bad (byte n) := fun n hst hf => by
    rw [hrun, ownActivate_refused hst hf]
    rfl
  refine ⟨fun hst => ?wrongState, fun hst ho => refused 2 hst (activateFailing_offset ho),
    fun hst ho hw => refused 4 hst (activateFailing_window ho hw),
    fun hst ho hw hg => refused 4 hst (activateFailing_stretch ho hw hg),
    fun hst ho hw hg ha => refused 10 hst (activateFailing_ages ho hw hg ha),
    fun hst ho hw hg ha hd hsame => ?differs, fun hst ho hw hg ha hd hsame => ?live, fun hst ho hw hg ha hd => ?copied⟩
  case wrongState => rw [hrun, ownActivate_wrongState hst]; rfl
  all_goals have passed := ownActivate_passed hst (activateFailing_none ho hw hg ha)
  case differs =>
    rw [hrun, passed, hd, show (s.chan c).active.sameNonLive (s.chan c).staged = false from hsame]
    rfl
  case live =>
    rw [hrun, passed, hd, show (s.chan c).active.sameNonLive (s.chan c).staged = true from hsame, if_pos rfl, if_pos rfl]
    rfl
  case copied =>
    obtain ⟨others, blocks⟩ := activateIdle_frame s c
    have own := chan_activateIdle s c
    simp only at own
    rw [hd] at passed
    refine ⟨s.activateIdle c, hrun.trans (by rw [passed]; rfl), others, congrArg (·.tb) blocks,
      congrArg (·.sched) blocks, congrArg (·.prot) blocks, congrArg (·.sup) blocks,
      congrArg (·.link) blocks, ?record, fun hstop hsame => ?kept, ?paired⟩
    case record =>
      rw [own]
      split_ifs <;> rfl
    case kept =>
      have still : ¬((s.chan c).state = .unconfigured ∨ (s.chan c).active.offset ≠ (s.chan c).staged.offset) :=
        not_or.2 ⟨fun hu => (by cases hu.symm.trans hstop), fun hne => hne hsame⟩
      rw [if_neg still] at own
      rw [own]
      exact ⟨rfl, rfl⟩
    case paired =>
      intro m low start fits hmoved
      rw [if_pos hmoved] at own
      rw [own]
      refine ⟨fun i h1 h2 hi hlow => ?_, fun x hx => ?_⟩
      · have hfirst : firstIndex s = low := by simp [firstIndex, low, Timebase.hasPrevious]
        have hstart : ∀ j, pairedStart s r.offset j = start j := fun j => by
          simp only [pairedStart, Timebase.masterAt, start, m]
          cases s.masterDue <;> rfl
        have canPair : ∀ j, CanPair s k r.offset j ↔ fits j := fun j => by rw [CanPair, hstart]
        have found := nextPairing_of_least (hfirst ▸ h1) h2 ((canPair i).2 hi) fun j hj hlt hc =>
          hlow j (hfirst ▸ hj) hlt ((canPair j).1 hc)
        exact found.trans (congrArg some (hstart i))
      · rw [show s.nextPairing (s.chan c) (s.chan c).staged.offset = some x from hx]
        exact rePair_nextHalf _ x _

end Sys2Proof.Settings

/-!
PROOFS. The master period start: the aux requests of one start as a list, what they make of the timeline, and the ages and the
staleness count.
-/

namespace Sys2Proof.MasterStart

open Sys2Proof Sys2Proof.Machine Sys2Proof.Edges

/-! ### The aux plan read at a master period start (R117) -/

/-- An aux entry's request falls due at this master period start. -/
def inserts (a : AuxEntry) : Bool := decide (a.divider ≠ 0 ∧ a.wait = 0)

/-- An aux entry as a master period start leaves it. -/
def turned (a : AuxEntry) : AuxEntry :=
  if a.divider = 0 then a else if a.wait = 0 then { a with wait := a.divider - 1 } else { a with wait := a.wait - 1 }

/-- The requests due among the aux entries of some indices, in their order. -/
def asked (aux : List AuxEntry) (is : List Nat) : List (Nat × AuxEntry) :=
  is.filterMap fun i => (aux[i]?.filter inserts).map (i, ·)

/-- Requests handed to the timeline one after the other. -/
def insertAll (t : Time) (m : Seq) (q : Scheduler) (rs : List (Nat × AuxEntry)) : Scheduler :=
  rs.foldl (fun q r => q.insertAux r.1 r.2 t m) q

theorem insertAux_frame (q : Scheduler) (i : Nat) (a : AuxEntry) (t : Time) (m : Seq) :
    q.insertAux i a t m = { q with timeline := (q.insertAux i a t m).timeline } := by
  unfold Scheduler.insertAux
  simp only
  split <;> rfl

theorem insertAux_setAux (q : Scheduler) (aux : List AuxEntry) (i : Nat) (a : AuxEntry) (t : Time) (m : Seq) :
    { q with aux := aux }.insertAux i a t m = { q.insertAux i a t m with aux := aux } := by
  have hocc : { q with aux := aux }.occupied (auxSlot a.source) = q.occupied (auxSlot a.source) := rfl
  cases ho : q.occupied (auxSlot a.source) <;> simp [Scheduler.insertAux, hocc, ho]

theorem insertAll_setAux (t : Time) (m : Seq) (aux : List AuxEntry) (rs : List (Nat × AuxEntry)) :
    ∀ q : Scheduler, insertAll t m { q with aux := aux } rs = { insertAll t m q rs with aux := aux } := by
  induction rs with
  | nil => exact fun _ => rfl
  | cons r rs ih => exact fun q => (congrArg (insertAll t m · rs) (insertAux_setAux q aux r.1 r.2 t m)).trans (ih _)

/-- The turn of one aux entry: its request if it is due, and its wait. -/
theorem auxTurn_eq (t : Time) (m : Seq) (q : Scheduler) (i : Nat) :
    Scheduler.auxTurn t m q i = { insertAll t m q (asked q.aux [i]) with aux := q.aux.modify i turned } := by
  unfold Scheduler.auxTurn
  cases ha : q.aux[i]? with
  | none =>
    have hm : q.aux.modify i turned = q.aux := List.modify_eq_self (List.getElem?_eq_none_iff.1 ha)
    simp [asked, ha, insertAll, hm]
  | some a =>
    have hset : ∀ b, turned a = b → q.aux.modify i turned = q.aux.set i b := by
      intro b hb
      rw [List.modify_eq_set_getElem?, ha]
      simp [hb]
    by_cases hd : a.divider = 0
    · have hm : q.aux.modify i turned = q.aux := by
        rw [hset a (by simp [turned, hd])]
        obtain ⟨hi, rfl⟩ := List.getElem?_eq_some_iff.1 ha
        exact List.set_getElem_self hi
      simp [asked, ha, inserts, hd, insertAll, hm]
    · by_cases hw : a.wait = 0
      · rw [hset { a with wait := a.divider - 1 } (by simp [turned, hd, hw])]
        simp [asked, ha, inserts, hd, hw, insertAll]
      · rw [hset { a with wait := a.wait - 1 } (by simp [turned, hd, hw])]
        simp [asked, ha, inserts, hd, hw, insertAll]

theorem asked_cons (aux : List AuxEntry) (i : Nat) (is : List Nat) : asked aux (i :: is) = asked aux [i] ++ asked aux is :=
  List.filterMap_append (l := [i])

theorem insertAll_append (t : Time) (m : Seq) (q : Scheduler) (rs ts : List (Nat × AuxEntry)) :
    insertAll t m q (rs ++ ts) = insertAll t m (insertAll t m q rs) ts := List.foldl_append

theorem asked_modify_of_notMem (aux : List AuxEntry) {i : Nat} {is : List Nat} (h : i ∉ is) (f : AuxEntry → AuxEntry) :
    asked (aux.modify i f) is = asked aux is := by
  refine List.filterMap_congr fun j hj => ?_
  have hne : i ≠ j := fun e => h (e ▸ hj)
  rw [List.getElem?_modify_ne f aux hne]

/-- The turns of some indices are their requests in order, with their waits. -/
theorem auxTurns_eq (t : Time) (m : Seq) (is : List Nat) (hn : is.Nodup) :
    ∀ q : Scheduler, is.foldl (Scheduler.auxTurn t m) q =
      { insertAll t m q (asked q.aux is) with aux := is.foldl (fun l i => l.modify i turned) q.aux } := by
  induction is with
  | nil => exact fun _ => rfl
  | cons i is ih =>
    intro q
    obtain ⟨hi, his⟩ := List.nodup_cons.1 hn
    rw [List.foldl_cons, ih his, auxTurn_eq, asked_cons q.aux i is]
    simp only [asked_modify_of_notMem q.aux hi, insertAll_setAux, insertAll_append, List.foldl_cons]

/-! ### What the requests make of the timeline (R107) -/

/-- How many of some requests are for a slot. -/
def askedFor (rs : List (Nat × AuxEntry)) (slot : Nat) : Nat := rs.countP fun r => auxSlot r.2.source == slot

/-- A waiting entry with some more requests merged into it. -/
def mergedBy (e : Entry) (n : Nat) : Entry := if n = 0 then e else { e with merged := e.merged.map fun k => min 255 (k + n) }

/-- The entry of an aux request as it enters the timeline. -/
def auxRequest (q : Scheduler) (i : Nat) (a : AuxEntry) (t : Time) (m : Seq) : Entry :=
  { slot := auxSlot a.source, owner := .aux i, purpose := .aux a.source, due := addTicks t a.instant, tol := none,
    level := q.auxLevel, seq := m, merged := some 0 }

@[simp] theorem mergedBy_zero (e : Entry) : mergedBy e 0 = e := rfl

@[simp] theorem slot_mergedBy (e : Entry) (n : Nat) : (mergedBy e n).slot = e.slot := by
  unfold mergedBy
  split <;> rfl

theorem mergedBy_of_pos (e : Entry) {n : Nat} (h : 0 < n) :
    mergedBy e n = { e with merged := e.merged.map fun k => min 255 (k + n) } := if_neg (Nat.pos_iff_ne_zero.1 h)

theorem mergedBy_merge (e : Entry) (n : Nat) : mergedBy e.merge n = mergedBy e (n + 1) := by
  rw [mergedBy_of_pos e (Nat.succ_pos n)]
  by_cases hn : n = 0
  · subst hn
    rfl
  · rw [mergedBy_of_pos _ (Nat.pos_of_ne_zero hn)]
    cases hm : e.merged with
    | none => simp [Entry.merge, hm]
    | some k =>
      have : min 255 (min 255 (k + 1) + n) = min 255 (k + (n + 1)) := by omega
      simp [Entry.merge, hm, this]

theorem occupied_iff (q : Scheduler) (slot : Nat) : q.occupied slot = true ↔ ∃ e ∈ q.timeline, e.slot = slot := by
  simp [Scheduler.occupied]

theorem mem_insertEntry {e x : Entry} {es : List Entry} : x ∈ insertEntry e es ↔ x = e ∨ x ∈ es :=
  (perm_insertEntry e es).mem_iff.trans List.mem_cons

theorem insertAux_of_occupied {q : Scheduler} {a : AuxEntry} (h : q.occupied (auxSlot a.source) = true) (i : Nat) (t : Time) (m : Seq) :
    q.insertAux i a t m =
      { q with timeline := q.timeline.map fun e => if e.slot = auxSlot a.source then e.merge else e } := if_pos h

theorem insertAux_of_free {q : Scheduler} {a : AuxEntry} (h : q.occupied (auxSlot a.source) = false) (i : Nat) (t : Time) (m : Seq) :
    q.insertAux i a t m = { q with timeline := insertEntry (auxRequest q i a t m) q.timeline } := if_neg (Bool.eq_false_iff.1 h)

/-- One request: it merges into what waits in its slot, or enters the free slot. -/
theorem mem_insertAux (q : Scheduler) (i : Nat) (a : AuxEntry) (t : Time) (m : Seq) (x : Entry) :
    x ∈ (q.insertAux i a t m).timeline ↔
      (∃ e ∈ q.timeline, mergedBy e (if auxSlot a.source = e.slot then 1 else 0) = x) ∨
        (q.occupied (auxSlot a.source) = false ∧ x = auxRequest q i a t m) := by
  cases ho : q.occupied (auxSlot a.source) with
  | true =>
    simp only [insertAux_of_occupied ho, List.mem_map, Bool.true_eq_false, false_and, or_false]
    refine exists_congr fun e => and_congr_right fun _ => ?_
    by_cases hs : e.slot = auxSlot a.source
    · rw [if_pos hs, if_pos hs.symm]
      rfl
    · rw [if_neg hs, if_neg (Ne.symm hs)]
      rfl
  | false =>
    simp only [insertAux_of_free ho, mem_insertEntry, true_and]
    have hfree : ∀ e ∈ q.timeline, mergedBy e (if auxSlot a.source = e.slot then 1 else 0) = e := by
      intro e he
      rw [if_neg fun hs => by simpa [ho] using (occupied_iff q _).2 ⟨e, he, hs.symm⟩, mergedBy_zero]
    constructor
    · rintro (rfl | hx)
      · exact .inr rfl
      · exact .inl ⟨x, hx, hfree x hx⟩
    · rintro (⟨e, he, rfl⟩ | rfl)
      · exact .inr (by rwa [hfree e he])
      · exact .inl rfl

theorem askedFor_cons (r : Nat × AuxEntry) (rs : List (Nat × AuxEntry)) (slot : Nat) :
    askedFor (r :: rs) slot = askedFor rs slot + if auxSlot r.2.source = slot then 1 else 0 := by
  simp [askedFor, List.countP_cons]

theorem askedFor_append (rs ts : List (Nat × AuxEntry)) (slot : Nat) :
    askedFor (rs ++ ts) slot = askedFor rs slot + askedFor ts slot := List.countP_append

/-- A waiting entry stays, with the requests for its slot merged into it. -/
theorem mergedBy_mem_insertAll (t : Time) (m : Seq) (rs : List (Nat × AuxEntry)) :
    ∀ (q : Scheduler) {e : Entry}, e ∈ q.timeline → mergedBy e (askedFor rs e.slot) ∈ (insertAll t m q rs).timeline := by
  induction rs with
  | nil => exact fun q e he => he
  | cons r rs ih =>
    intro q e he
    have hmem := ih _ ((mem_insertAux q r.1 r.2 t m _).2 (.inl ⟨e, he, rfl⟩))
    rw [slot_mergedBy] at hmem
    rw [askedFor_cons]
    by_cases hs : auxSlot r.2.source = e.slot
    · rw [if_pos hs] at hmem ⊢
      exact mergedBy_merge e _ ▸ hmem
    · rw [if_neg hs] at hmem ⊢
      exact hmem

/-- An entry of the timeline waited there before, or one of the requests was for its slot. -/
theorem slot_of_mem_insertAll (t : Time) (m : Seq) (rs : List (Nat × AuxEntry)) :
    ∀ (q : Scheduler) {e : Entry}, e ∈ (insertAll t m q rs).timeline →
      (∃ x ∈ q.timeline, x.slot = e.slot) ∨ 0 < askedFor rs e.slot := by
  induction rs with
  | nil => exact fun q e he => .inl ⟨e, he, rfl⟩
  | cons r rs ih =>
    intro q e he
    rw [askedFor_cons]
    rcases ih (q.insertAux r.1 r.2 t m) he with ⟨x, hx, hxe⟩ | hpos
    · rcases (mem_insertAux q r.1 r.2 t m x).1 hx with ⟨y, hy, rfl⟩ | ⟨_, rfl⟩
      · exact .inl ⟨y, hy, by rw [← hxe, slot_mergedBy]⟩
      · refine .inr ?_
        rw [if_pos (show auxSlot r.2.source = e.slot from hxe)]
        omega
    · exact .inr (by omega)

theorem auxLevel_insertAll (t : Time) (m : Seq) (rs : List (Nat × AuxEntry)) :
    ∀ q : Scheduler, (insertAll t m q rs).auxLevel = q.auxLevel := by
  induction rs with
  | nil => exact fun _ => rfl
  | cons r rs ih => exact fun q => (ih _).trans (congrArg (·.auxLevel) (insertAux_frame q r.1 r.2 t m))

theorem conv_insertAll (t : Time) (m : Seq) (rs : List (Nat × AuxEntry)) :
    ∀ q : Scheduler, (insertAll t m q rs).conv = q.conv := by
  induction rs with
  | nil => exact fun _ => rfl
  | cons r rs ih => exact fun q => (ih _).trans (congrArg (·.conv) (insertAux_frame q r.1 r.2 t m))

/-- The first request for a slot that is free enters it; those after it merge into it. -/
theorem first_mem_insertAll (t : Time) (m : Seq) (q : Scheduler) (rs ts : List (Nat × AuxEntry)) (i : Nat) (a : AuxEntry)
    (hfree : ∀ e ∈ q.timeline, e.slot ≠ auxSlot a.source) (hfirst : askedFor rs (auxSlot a.source) = 0) :
    mergedBy (auxRequest q i a t m) (askedFor ts (auxSlot a.source)) ∈
      (insertAll t m q (rs ++ (i, a) :: ts)).timeline := by
  have hsplit : insertAll t m q (rs ++ (i, a) :: ts) = insertAll t m ((insertAll t m q rs).insertAux i a t m) ts :=
    List.foldl_append
  have hocc : (insertAll t m q rs).occupied (auxSlot a.source) = false := by
    refine Bool.eq_false_iff.2 fun ho => ?_
    obtain ⟨e, he, hs⟩ := (occupied_iff _ _).1 ho
    rcases slot_of_mem_insertAll t m rs q he with ⟨x, hx, hxe⟩ | hpos
    · exact hfree x hx (hxe.trans hs)
    · rw [hs, hfirst] at hpos
      exact Nat.lt_irrefl 0 hpos
  have hin : auxRequest q i a t m ∈ ((insertAll t m q rs).insertAux i a t m).timeline :=
    (mem_insertAux _ i a t m _).2 (.inr ⟨hocc, by rw [auxRequest, auxRequest, auxLevel_insertAll]⟩)
  exact hsplit ▸ mergedBy_mem_insertAll t m ts _ hin

theorem auxSlot_injective {a b : AuxSource} (h : auxSlot a = auxSlot b) : a = b := by
  cases a <;> cases b <;> simp_all [auxSlot, AuxSource.code]

theorem nine_le_auxSlot (a : AuxSource) : 9 ≤ auxSlot a := Nat.le_add_right 9 a.code

/-- No request is for a slot of a channel. -/
theorem askedFor_eq_zero_of_lt (rs : List (Nat × AuxEntry)) {slot : Nat} (h : slot < 9) : askedFor rs slot = 0 := by
  refine List.countP_eq_zero.2 fun r _ hr => ?_
  have := nine_le_auxSlot r.2.source
  rw [beq_iff_eq] at hr
  omega

/-! ### The requests of the four entries -/

/-- The requests of one master period start. -/
abbrev askedAll (aux : List AuxEntry) : List (Nat × AuxEntry) := asked aux [0, 1, 2, 3]

theorem askedFor_askedAll {aux : List AuxEntry} (h : aux.length = 4) (slot : Nat) :
    askedFor (askedAll aux) slot = aux.countP fun a => inserts a && auxSlot a.source == slot := by
  obtain ⟨a, b, c, d, rfl⟩ := List.length_eq_four.1 h
  have one : ∀ x : AuxEntry, ∀ i : Nat,
      ((((some x).filter inserts).map (Prod.mk i)).map fun r => auxSlot r.2.source == slot).getD false =
        (inserts x && auxSlot x.source == slot) := by
    intro x i
    cases hx : inserts x <;> simp [Option.filter, hx]
  simp only [askedFor, asked, List.countP_filterMap, List.countP_cons, List.countP_nil, List.getElem?_cons_zero,
    List.getElem?_cons_succ, one]

theorem map_turned {aux : List AuxEntry} (h : aux.length = 4) :
    [0, 1, 2, 3].foldl (fun l i => l.modify i turned) aux = aux.map turned := by
  obtain ⟨a, b, c, d, rfl⟩ := List.length_eq_four.1 h
  rfl

theorem mem_asked {aux : List AuxEntry} {is : List Nat} {j : Nat} {b : AuxEntry} :
    (j, b) ∈ asked aux is ↔ j ∈ is ∧ aux[j]? = some b ∧ inserts b = true := by
  simp only [asked, List.mem_filterMap, Option.map_eq_some_iff, Prod.mk.injEq, Option.filter_eq_some_iff]
  constructor
  · rintro ⟨i, hi, x, ⟨hx, hins⟩, rfl, rfl⟩
    exact ⟨hi, hx, hins⟩
  · rintro ⟨hj, hb, hins⟩
    exact ⟨j, hj, b, ⟨hb, hins⟩, rfl, rfl⟩

/-- The requests before and after that of one index. -/
theorem askedAll_split {aux : List AuxEntry} {i : Nat} {a : AuxEntry} (hi : i < 4) (ha : aux[i]? = some a) (hins : inserts a = true) :
    ∃ ts, askedAll aux = asked aux (List.range i) ++ (i, a) :: ts ∧ ts.length ≤ 3 := by
  have hone : asked aux [i] = [(i, a)] := by simp [asked, ha, Option.filter, hins]
  have hsplit : [0, 1, 2, 3] = List.range i ++ i :: (List.range (3 - i)).map (· + (i + 1)) := by
    match i, hi with
    | 0, _ => rfl
    | 1, _ => rfl
    | 2, _ => rfl
    | 3, _ => rfl
  refine ⟨asked aux ((List.range (3 - i)).map (· + (i + 1))), ?_, ?_⟩
  · calc askedAll aux = asked aux (List.range i ++ i :: (List.range (3 - i)).map (· + (i + 1))) := by rw [askedAll, hsplit]
      _ = _ := by rw [asked, List.filterMap_append, ← asked, ← asked, asked_cons, hone]; rfl
  · refine (List.length_filterMap_le _ _).trans ?_
    simp

theorem auxPlanTurn_eq (q : Scheduler) (t : Time) (m : Seq) :
    q.auxPlanTurn t m =
      { insertAll t m q (askedAll q.aux) with aux := [0, 1, 2, 3].foldl (fun l i => l.modify i turned) q.aux } :=
  auxTurns_eq t m [0, 1, 2, 3] (by decide) q

/-- Where a slot's first request is that of entry i, it enters with the others of the slot merged into it. -/
theorem first_mem_auxPlanTurn {q : Scheduler} (t : Time) (m : Seq) (h4 : q.aux.length = 4) {i : Nat} {a : AuxEntry}
    (ha : q.aux[i]? = some a) (hins : inserts a = true) (hfree : ∀ e ∈ q.timeline, e.slot ≠ auxSlot a.source)
    (hfirst : ∀ j b, j < i → q.aux[j]? = some b → inserts b = true → b.source ≠ a.source) :
    { auxRequest q i a t m with merged := some (askedFor (askedAll q.aux) (auxSlot a.source) - 1) } ∈
      (q.auxPlanTurn t m).timeline := by
  have hi : i < 4 := h4 ▸ (List.getElem?_eq_some_iff.1 ha).1
  obtain ⟨ts, hsplit, hts⟩ := askedAll_split hi ha hins
  have hnone : askedFor (asked q.aux (List.range i)) (auxSlot a.source) = 0 := by
    refine List.countP_eq_zero.2 fun r hr hslot => ?_
    obtain ⟨hj, hb, hbins⟩ := mem_asked.1 (show (r.1, r.2) ∈ _ from hr)
    exact hfirst r.1 r.2 (List.mem_range.1 hj) hb hbins (auxSlot_injective (beq_iff_eq.1 hslot))
  have hmem := first_mem_insertAll t m q (asked q.aux (List.range i)) ts i a hfree hnone
  have hcount : askedFor (askedAll q.aux) (auxSlot a.source) - 1 = askedFor ts (auxSlot a.source) := by
    rw [hsplit, askedFor_append, hnone, askedFor_cons, if_pos rfl]
    omega
  have hle : askedFor ts (auxSlot a.source) ≤ 3 := List.countP_le_length.trans hts
  have hentry : mergedBy (auxRequest q i a t m) (askedFor ts (auxSlot a.source)) =
      { auxRequest q i a t m with merged := some (askedFor ts (auxSlot a.source)) } := by
    by_cases hz : askedFor ts (auxSlot a.source) = 0
    · rw [hz]
      rfl
    · have : min 255 (0 + askedFor ts (auxSlot a.source)) = askedFor ts (auxSlot a.source) := by omega
      rw [mergedBy_of_pos _ (Nat.pos_of_ne_zero hz)]
      simp only [auxRequest, Option.map_some, this]
  rw [hcount, auxPlanTurn_eq, hsplit, ← hentry]
  exact hmem

/-! ### The staleness count (R147) -/

theorem staleCountStep_blocks (s : State) :
    s.staleCountStep.tb = s.tb ∧ s.staleCountStep.ch = s.ch ∧ s.staleCountStep.sup = s.sup ∧
      s.staleCountStep.power = s.power ∧ s.staleCountStep.sched = s.sched := by
  unfold State.staleCountStep State.busStaleStep
  split_ifs <;> simp

theorem staleCountStep_prot (s : State) :
    s.staleCountStep.prot.bus = s.prot.bus ∧ s.staleCountStep.prot.temp = s.prot.temp ∧
      s.staleCountStep.prot.spare1 = s.prot.spare1 ∧ s.staleCountStep.prot.spare2 = s.prot.spare2 ∧
      s.staleCountStep.prot.staleCount = if s.anyRunning = true then min 64 (s.prot.staleCount + 1) else 0 := by
  unfold State.staleCountStep State.busStaleStep
  split_ifs <;> simp

theorem busStaleStep_link (s : State) :
    s.busStaleStep.link =
      if s.prot.staleCount = 64 ∧ s.prot.staleGiven = false then
        s.link.queueEvent
          { code := .busStale, chan := none, seq := s.masterSeqNow, repeats := 1,
            detail := match s.prot.bus with | some b => b.age | none => 255 }
      else s.link := by
  unfold State.busStaleStep
  split_ifs <;> rfl

theorem staleCountStep_link (s : State) :
    s.staleCountStep.link =
      if s.anyRunning = true ∧ min 64 (s.prot.staleCount + 1) = 64 ∧ s.prot.staleGiven = false then
        s.link.queueEvent
          { code := .busStale, chan := none, seq := s.masterSeqNow, repeats := 1,
            detail := match s.prot.bus with | some b => b.age | none => 255 }
      else s.link := by
  unfold State.staleCountStep
  by_cases hr : s.anyRunning = true
  · simp only [hr, if_true, true_and]
    exact busStaleStep_link _
  · simp [hr]

/-! ### The master period start -/

/-- The state in which a master period start finds the staleness count. -/
def aged (s : State) : State :=
  { s with
    tb := s.tb.takeMaster
    sched := s.sched.auxPlanTurn s.tb.masterNext s.tb.masterNextSeq
    prot := s.prot.ageAll }

theorem masterWork_eq (s : State) : s.masterWork = (aged s).staleCountStep := rfl

theorem anyRunning_aged (s : State) : (aged s).anyRunning = s.anyRunning := rfl

theorem later_eq_false_of_notBefore {a b : Time} (h : notBefore b a = true) : later a b = false := by
  simp only [notBefore, later, decide_eq_true_eq, decide_eq_false_iff_not, Int.not_lt, BitVec.toInt_eq_toNat_cond,
    BitVec.toNat_sub] at h ⊢
  split_ifs at h ⊢ <;> omega

theorem exec_masterDue {s : State} (h : s.masterDue = true) : exec .masterPeriodStart s = .next s.masterWork.settle := by
  obtain ⟨hclock, hdue⟩ := Bool.and_eq_true_iff.1 h
  have hlater : later s.tb.masterNext s.tb.now = false := later_eq_false_of_notBefore hdue
  show execMasterPeriodStart s = _
  rw [execMasterPeriodStart, if_pos hclock, waitUntil_reached hlater]
  rfl

/-- What the aux plan makes of the timeline at a master period start. -/
theorem timeline_auxPlanTurn {q : Scheduler} (t : Time) (m : Seq) (h4 : q.aux.length = 4) {e : Entry} (he : e ∈ q.timeline) :
    mergedBy e (q.aux.countP fun a => inserts a && auxSlot a.source == e.slot) ∈ (q.auxPlanTurn t m).timeline := by
  rw [← askedFor_askedAll h4, auxPlanTurn_eq]
  exact mergedBy_mem_insertAll t m _ q he

theorem channelEntry_mem_auxPlanTurn {q : Scheduler} (t : Time) (m : Seq) {e : Entry} (he : e ∈ q.timeline) (hs : e.slot < 9) :
    e ∈ (q.auxPlanTurn t m).timeline := by
  have h := mergedBy_mem_insertAll t m (askedAll q.aux) q he
  rw [askedFor_eq_zero_of_lt _ hs] at h
  rw [auxPlanTurn_eq]
  exact h

/-- Settles O46: the aux plan is its list of requests, of which the first for a free slot enters it and the others merge. -/
theorem masterPeriodStartAdvancesSequenceAndAges : Obligations.MasterPeriodStartAdvancesSequenceAndAges := by
  refine ⟨fun s hdue => ?_, fun s hcount hgiven => ?_⟩
  · obtain ⟨htb, hch, hsup, hpower, hsched⟩ := staleCountStep_blocks (aged s)
    obtain ⟨hbus, htemp, hsp1, hsp2, hstale⟩ := staleCountStep_prot (aged s)
    rw [← masterWork_eq] at htb hch hsup hpower hsched hbus htemp hsp1 hsp2 hstale
    have hline : s.masterWork.sched.timeline = (s.sched.auxPlanTurn s.tb.masterNext s.tb.masterNextSeq).timeline :=
      congrArg (·.timeline) hsched
    have hturn := auxPlanTurn_eq s.sched s.tb.masterNext s.tb.masterNextSeq
    have hseq : s.masterWork.masterSeqNow = (aged s).masterSeqNow := State.masterSeqNow_congr hpower htb
    refine ⟨s.masterWork, exec_masterDue hdue, congrArg (·.now) htb, congrArg (·.masterSeq) htb, congrArg (·.masterNextSeq) htb,
      congrArg (·.masterStart) htb, congrArg (·.masterNext) htb, hch, hsup, hpower, ?_, hbus, htemp, hsp1, hsp2, hstale,
      fun h4 => ?_, fun h4 => ⟨fun e he => ⟨fun hz => ?_, fun hpos => ?_⟩, fun i a ha hins hfree hfirst => ?_, fun e he => ?_⟩, ?_,
      fun e he hs => ?_⟩
    · rw [hsched]
      exact (congrArg (·.conv) hturn).trans (conv_insertAll _ _ _ _)
    · rw [hsched]
      exact (congrArg (·.aux) hturn).trans (map_turned h4)
    · have hmem := timeline_auxPlanTurn s.tb.masterNext s.tb.masterNextSeq h4 he
      rw [show (s.sched.aux.countP fun a => inserts a && auxSlot a.source == e.slot) = 0 from hz] at hmem
      rw [hline]
      exact hmem
    · have hmem := timeline_auxPlanTurn s.tb.masterNext s.tb.masterNextSeq h4 he
      rw [hline]
      exact mergedBy_of_pos e hpos ▸ hmem
    · have hmem := first_mem_auxPlanTurn s.tb.masterNext s.tb.masterNextSeq h4 ha hins hfree hfirst
      rw [askedFor_askedAll h4] at hmem
      rw [hline]
      exact hmem
    · rw [hline, hturn] at he
      rcases slot_of_mem_insertAll _ _ _ _ he with hx | hpos
      · exact .inl hx
      · exact .inr (hpos.trans_eq (askedFor_askedAll h4 e.slot))
    · refine (staleCountStep_link (aged s)).trans ?_
      rw [anyRunning_aged]
      refine if_congr Iff.rfl ?_ rfl
      rw [hseq]
      cases hb : s.prot.bus <;> simp [aged, Protection.ageAll, hb, AuxResult.older]
    · rw [hline]
      exact channelEntry_mem_auxPlanTurn _ _ he hs
  · show done s.busStaleStep = _
    rw [State.busStaleStep, if_pos ⟨hcount, hgiven⟩]
    rfl

end Sys2Proof.MasterStart

/-!
PROOFS. The half-period point: what a commutation makes of a channel, and what a due compare makes of a FORCED run and of CLOSED.
-/

namespace Sys2Proof.HalfPeriod

open Sys2Proof Sys2Proof.Machine Sys2Proof.Motor Sys2Proof.Edges Sys2Proof.SixStep Sys2Proof.Currents

/-! ### Roles (R76) -/

theorem roleOf_of_high {i : Nat} {y : Phase} (h : highPhase i = y) : roleOf i y = .high := if_pos h.symm

theorem roleOf_of_low {i : Nat} {y : Phase} (h : lowPhase i = y) : roleOf i y = .low :=
  (if_neg fun hy => (roles_apart i).1 (hy.symm.trans h.symm)).trans (if_pos h.symm)

theorem roleOf_of_float {i : Nat} {y : Phase} (h : floatPhase i = y) : roleOf i y = .float :=
  (if_neg fun hy => (roles_apart i).2.1 (hy.symm.trans h.symm)).trans
    (if_neg fun hy => (roles_apart i).2.2 (hy.symm.trans h.symm))

/-- Every phase has a role. -/
theorem high_low_or_float (i : Nat) (y : Phase) : highPhase i = y ∨ lowPhase i = y ∨ floatPhase i = y := by
  match i with
  | 0 | 1 | 2 | 3 | 4 => cases y <;> decide
  | _ + 5 => cases y <;> simp [highPhase, lowPhase, floatPhase]

/-- A phase keeps its role from step index i to j. -/
def Stays (i j : Nat) (y : Phase) : Prop :=
  (highPhase i = y ∧ highPhase j = y) ∨ (lowPhase i = y ∧ lowPhase j = y) ∨ (floatPhase i = y ∧ floatPhase j = y)

theorem roleOf_eq_of_stays {i j : Nat} {y : Phase} (h : Stays i j y) : roleOf i y = roleOf j y := by
  rcases h with ⟨hi, hj⟩ | ⟨hi, hj⟩ | ⟨hi, hj⟩
  · rw [roleOf_of_high hi, roleOf_of_high hj]
  · rw [roleOf_of_low hi, roleOf_of_low hj]
  · rw [roleOf_of_float hi, roleOf_of_float hj]

theorem stays_of_roleOf_eq {i j : Nat} {y : Phase} (h : roleOf i y = roleOf j y) : Stays i j y := by
  rcases high_low_or_float i y with hi | hi | hi <;> rcases high_low_or_float j y with hj | hj | hj
  · exact .inl ⟨hi, hj⟩
  · cases (roleOf_of_high hi).symm.trans (h.trans (roleOf_of_low hj))
  · cases (roleOf_of_high hi).symm.trans (h.trans (roleOf_of_float hj))
  · cases (roleOf_of_low hi).symm.trans (h.trans (roleOf_of_high hj))
  · exact .inr (.inl ⟨hi, hj⟩)
  · cases (roleOf_of_low hi).symm.trans (h.trans (roleOf_of_float hj))
  · cases (roleOf_of_float hi).symm.trans (h.trans (roleOf_of_high hj))
  · cases (roleOf_of_float hi).symm.trans (h.trans (roleOf_of_low hj))
  · exact .inr (.inr ⟨hi, hj⟩)

/-! ### One phase at a commutation (R69) -/

section

variable (g : PhaseGate) (at' : CommPoint) (h d n : Nat) (now : Time)

theorem commutate_same (r : Role) : g.commutate r r at' h d n now = g := by cases r <;> rfl

theorem commutate_float {r : Role} (hr : r ≠ .float) : g.commutate r .float at' h d n now = g.down now d := by
  cases r with
  | high | low => rfl
  | float => exact absurd rfl hr

theorem commutate_low {r : Role} (hr : r ≠ .low) :
    g.commutate r .low at' h d n now = (g.topDown now d).bottomAt (addTicks now d) := by
  cases r with
  | high | float => rfl
  | low => exact absurd rfl hr

/-- A newly high phase at the period's start keeps the state of its top switch. -/
theorem commutate_high_atStart {r : Role} (hr : r ≠ .high) (hp : at' ≠ .atPeak) :
    (g.commutate r .high at' h d n now).top = g.top ∧ (g.commutate r .high at' h d n now).bottom = false ∧
      (g.commutate r .high at' h d n now).topPend = g.topPend ∧ (g.commutate r .high at' h d n now).bottomPend = none := by
  cases r with
  | high => exact absurd rfl hr
  | low | float =>
    cases at' with
    | atPeak => exact absurd rfl hp
    | atStart | beforeStart => exact ⟨rfl, rfl, rfl, rfl⟩

/-- A newly high phase at the period's middle turns on for the remainder of its top interval, where that is long enough. -/
theorem commutate_high_atPeak {r : Role} (hr : r ≠ .high) :
    (g.commutate r .high .atPeak h d n now).top = g.top ∧ (g.commutate r .high .atPeak h d n now).bottom = false ∧
      (g.commutate r .high .atPeak h d n now).bottomPend = none ∧
      (d < h - n → g.top = false → (g.commutate r .high .atPeak h d n now).topPend = some (addTicks now d)) ∧
      (h - n ≤ d → (g.commutate r .high .atPeak h d n now).topPend = g.topPend) := by
  have hdown : g.commutate r .high .atPeak h d n now =
      if d < h - n then { (g.bottomDown now d).topAt (addTicks now d) with edges := 1 }
      else { g.bottomDown now d with edges := 2 } := by
    cases r with
    | high => exact absurd rfl hr
    | low | float => rfl
  rw [hdown]
  by_cases hd : d < h - n
  · have hnot : ¬h - n ≤ d := Nat.not_le.2 hd
    cases ht : g.top <;> simp [hd, hnot, PhaseGate.topAt, PhaseGate.bottomDown, ht]
  · simp [hd, PhaseGate.bottomDown]

end

/-! ### A commutation (R69, R85) -/

/-- The sequencer of a channel after a commutation at t. -/
def stepped (k : Channel) (t : Time) : StepSeq :=
  { k.sq with
    index := nextIndex k.sq.dir k.sq.index
    lastComm := some t
    blanking := k.active.blanking
    found := false
    prev := none
    compare := none }

/-- The six gates of a channel after a commutation. -/
def commutedGates (k : Channel) (t : Time) (peak : Bool) (h d : Nat) (now : Time) : Gates :=
  match k.curPlan.bind Plan.stepC with
  | some n => Gates.commutate k.gates k.sq.index (nextIndex k.sq.dir k.sq.index) (k.commPoint t peak) h d n now
  | none => k.gates

theorem chan_commutate (u : State) (c : Chan) (t : Time) (peak : Bool) :
    (u.commutate c t peak).chan c =
      { u.chan c with
        sq := stepped (u.chan c) t
        gates := commutedGates (u.chan c) t peak u.tb.h u.tb.d u.tb.now
        curPlan := (u.chan c).curPlan.map (·.withIndex (nextIndex (u.chan c).sq.dir (u.chan c).sq.index)) } := by
  unfold State.commutate
  rw [State.chan_modCh_same]
  rfl

/-- The outcome of a commutation whose caller sets the channel's state and the sequencer. -/
def moved (u : State) (c : Chan) (t : Time) (peak : Bool) (st : ChanState) (f : StepSeq → StepSeq) : State :=
  (u.commutate c t peak).modCh c fun k => { k with state := st, sq := f k.sq }

theorem chan_moved (u : State) (c : Chan) (t : Time) (peak : Bool) (st : ChanState) (f : StepSeq → StepSeq) :
    (moved u c t peak st f).chan c =
      { u.chan c with
        state := st
        sq := f (stepped (u.chan c) t)
        gates := commutedGates (u.chan c) t peak u.tb.h u.tb.d u.tb.now
        curPlan := (u.chan c).curPlan.map (·.withIndex (nextIndex (u.chan c).sq.dir (u.chan c).sq.index)) } := by
  rw [moved, State.chan_modCh_same, chan_commutate]

theorem chan_moved_other (u : State) {c x : Chan} (t : Time) (peak : Bool) (st : ChanState) (f : StepSeq → StepSeq) (hx : x ≠ c) :
    (moved u c t peak st f).chan x = u.chan x := by
  rw [moved, State.chan_modCh_other _ _ hx, State.commutate, State.chan_modCh_other _ _ hx]
  rfl

theorem moved_sched (u : State) (c : Chan) (t : Time) (peak : Bool) (st : ChanState) (f : StepSeq → StepSeq) :
    (moved u c t peak st f).sched =
      { u.sched with
        conv := u.sched.conv.map fun v => if v.entry.owner = .chan c then { v with commutated := true } else v } := by
  show u.sched.noteCommutation c = _
  unfold Scheduler.noteCommutation
  congr 2
  funext v
  exact if_congr (by simp [Entry.ownedBy]) rfl rfl

/-! ### A FORCED compare (R86, R87) -/

/-- The qualified-step count that a FORCED compare leaves: a step without a crossing ends the row (R92). -/
def qualifiedAfter (k : Channel) : Nat := if k.state = .align ∨ k.sq.found = false then 0 else k.sq.qualified

def forcedAt (t : Time) (n : Nat) : Option Compare := some { due := addTicks t n, kind := .forced, reached := false }

/-- The first compare of a segment that begins at t. -/
def beginsWith (t : Time) (g : Segment) : Option Compare :=
  forcedAt t (match g.kind with | .align => g.hold | .ramp => g.stepTicks 0)

/-- The state of a channel in a segment. -/
def runState (g : Segment) : ChanState := match g.kind with | .align => .align | .ramp => .ramp

section

variable {u : State} {c : Chan}

theorem modCh_modCh (v : State) (c : Chan) (f g : Channel → Channel) : (v.modCh c f).modCh c g = v.modCh c fun k => g (f k) := by
  cases c <;> rfl

theorem counted_eq (u : State) (c : Chan) :
    (u.modSq c fun q => if ((u.chan c).state == .align) || !q.found then { q with qualified := 0 } else q) =
      u.modSq c fun q => { q with qualified := qualifiedAfter (u.chan c) } := by
  refine modCh_congr ?_
  by_cases ha : (u.chan c).state = .align
  · simp [ha, qualifiedAfter]
  · cases hf : (u.chan c).sq.found with
    | false => simp [hf, qualifiedAfter]
    | true =>
      have hkeeps : ((u.chan c).state == .align || !(u.chan c).sq.found) = false := by simp [ha, hf]
      have hq : qualifiedAfter (u.chan c) = (u.chan c).sq.qualified := if_neg (by simp [ha, hf])
      simp only [hkeeps, hq, Bool.false_eq_true, if_false]

theorem commutate_counted (u : State) (c : Chan) (t : Time) (peak : Bool) (n : Nat) :
    (u.modSq c fun q => { q with qualified := n }).commutate c t peak =
      (u.commutate c t peak).modSq c fun q => { q with qualified := n } := by
  cases c <;> rfl

theorem enterSegment_eq {v : State} {i : Nat} {g : Segment} (hg : v.segmentAt c i = g) (t : Time) :
    v.enterSegment c i t =
      v.modCh c fun k =>
        { k with state := runState g, sq := { k.sq with seg := i, j := 0, compare := beginsWith t g } } := by
  unfold State.enterSegment
  cases hk : g.kind <;> simp only [hg, hk, State.setCompare, State.modSq, modCh_modCh, runState, beginsWith, forcedAt]

theorem segmentAt_commutate (u : State) (c : Chan) (t : Time) (peak : Bool) (i : Nat) :
    (u.commutate c t peak).segmentAt c i = u.segmentAt c i := by
  unfold State.segmentAt
  rw [chan_commutate]
  rfl

theorem segmentAt_modSq_qualified (u : State) (c : Chan) (n i : Nat) :
    (u.modSq c fun q => { q with qualified := n }).segmentAt c i = u.segmentAt c i := by
  unfold State.segmentAt
  rw [State.chan_modSq_same]
  rfl

/-- The next forced step of a RAMP segment. -/
theorem advanceRun_step {g : Segment} (t : Time) (peak : Bool) (hs : (u.chan c).state = .ramp) (hg : u.segment c = g)
    (hj : (u.chan c).sq.j + 1 < g.repeats) :
    u.advanceRun c t peak =
      moved u c t peak .ramp fun q =>
        { q with
          qualified := qualifiedAfter (u.chan c)
          j := (u.chan c).sq.j + 1
          compare := forcedAt t (g.stepTicks ((u.chan c).sq.j + 1)) } := by
  have hcond : (!((u.chan c).state == .align) && decide ((u.chan c).sq.j + 1 < g.repeats)) = true := by simp [hs, hj]
  unfold State.advanceRun
  simp only [hg, counted_eq, commutate_counted]
  rw [if_pos hcond]
  simp only [State.setCompare, State.modSq, modCh_modCh, moved]
  refine modCh_congr ?_
  rw [chan_commutate]
  simp only [hs]
  rfl

/-- A FORCED compare that ends its segment within the range. -/
def EndsSegment (k : Channel) (g : Segment) : Prop := k.state = .align ∨ (k.state = .ramp ∧ g.repeats ≤ k.sq.j + 1)

theorem not_steps_of_endsSegment {k : Channel} {g : Segment} (h : EndsSegment k g) :
    (!(k.state == .align) && decide (k.sq.j + 1 < g.repeats)) = false := by
  rcases h with h | ⟨h, hj⟩
  · simp [h]
  · simp [h, hj]

/-- From ALIGN to ALIGN: the segment is entered without a commutation. -/
theorem advanceRun_hold {f : Segment} (t : Time) (peak : Bool) (hs : (u.chan c).state = .align)
    (hseg : (u.chan c).sq.seg < (u.chan c).sq.last) (hf : u.segmentAt c ((u.chan c).sq.seg + 1) = f) (hk : f.kind = .align) :
    u.advanceRun c t peak =
      u.modCh c fun k =>
        { k with
          state := .align
          sq := { k.sq with seg := (u.chan c).sq.seg + 1, j := 0, qualified := 0, compare := forcedAt t f.hold } } := by
  unfold State.advanceRun
  simp only [counted_eq]
  rw [if_neg (Bool.eq_false_iff.1 (not_steps_of_endsSegment (g := u.segment c) (.inl hs))), if_pos hseg, if_pos (by simp [hs, hf, hk]),
    enterSegment_eq ((segmentAt_modSq_qualified u c _ _).trans hf)]
  simp only [State.modSq, modCh_modCh, runState, beginsWith, hk, qualifiedAfter, hs, true_or, if_true]

/-- Any other next segment is entered with a commutation. -/
theorem advanceRun_enters {g f : Segment} (t : Time) (peak : Bool) (hg : u.segment c = g) (hend : EndsSegment (u.chan c) g)
    (hseg : (u.chan c).sq.seg < (u.chan c).sq.last) (hf : u.segmentAt c ((u.chan c).sq.seg + 1) = f)
    (hk : (u.chan c).state = .ramp ∨ f.kind = .ramp) :
    u.advanceRun c t peak =
      moved u c t peak (runState f) fun q =>
        { q with
          seg := (u.chan c).sq.seg + 1
          j := 0
          qualified := qualifiedAfter (u.chan c)
          compare := beginsWith t f } := by
  have hnot : ((u.chan c).state == .align && f.kind == .align) = false := by
    rcases hk with h | h <;> simp [h]
  unfold State.advanceRun
  simp only [counted_eq, commutate_counted]
  rw [if_neg (Bool.eq_false_iff.1 (not_steps_of_endsSegment (hg ▸ hend))), if_pos hseg,
    if_neg (by rw [hf, hnot]; exact Bool.false_ne_true),
    enterSegment_eq ((segmentAt_modSq_qualified _ c _ _).trans ((segmentAt_commutate u c t peak _).trans hf))]
  simp only [State.modSq, modCh_modCh, moved]

/-- The end of the range: the run has failed. -/
theorem advanceRun_fails {g : Segment} (t : Time) (peak : Bool) (hg : u.segment c = g) (hend : EndsSegment (u.chan c) g)
    (hseg : (u.chan c).sq.last ≤ (u.chan c).sq.seg) :
    u.advanceRun c t peak =
      ((u.modSq c fun q => { q with qualified := qualifiedAfter (u.chan c) }).toStopped c).queueEvent .startFailed (some c)
        (u.chan c).sq.last := by
  unfold State.advanceRun
  simp only [counted_eq]
  rw [if_neg (Bool.eq_false_iff.1 (not_steps_of_endsSegment (hg ▸ hend))), if_neg (Nat.not_lt.2 hseg), State.startFailed,
    State.chan_modSq_same]

/-! ### CLOSED (R96, R97) -/

def blindAt (t : Time) (q : StepSeq) : Option Compare :=
  some { due := addTicks t (q.t60 * q.p), kind := .blind, reached := false }

/-- A commutation in CLOSED by a compare that is not BLIND. -/
theorem closedCommutation_found {kind : CompareKind} (t : Time) (peak : Bool) (hs : (u.chan c).state = .closed)
    (hk : kind ≠ .blind) :
    u.closedCommutation c t peak kind =
      moved u c t peak .closed fun q => { q with compare := blindAt t (u.chan c).sq } := by
  unfold State.closedCommutation
  simp only [hk, if_false, State.setCompare, State.modSq, moved]
  refine modCh_congr ?_
  rw [chan_commutate]
  simp only [hs]
  rfl

/-- A BLIND commutation: its miss, and the examination of the count. -/
theorem closedCommutation_blind (t : Time) (peak : Bool) (hs : (u.chan c).state = .closed) :
    u.closedCommutation c t peak .blind =
      ((moved u c t peak .closed fun q =>
        { q with compare := blindAt t (u.chan c).sq, miss := min 7 ((u.chan c).sq.miss + 1) }).queueEvent .blindStep (some c)
          (min 7 ((u.chan c).sq.miss + 1))).lostSyncStep c := by
  have hmoved : (((u.commutate c t peak).setCompare c (addTicks t ((u.chan c).sq.t60 * (u.chan c).sq.p)) .blind).modSq c
      fun x => { x with miss := min 7 ((u.chan c).sq.miss + 1) }) =
      moved u c t peak .closed fun q =>
        { q with compare := blindAt t (u.chan c).sq, miss := min 7 ((u.chan c).sq.miss + 1) } := by
    simp only [State.setCompare, State.modSq, modCh_modCh, moved]
    refine modCh_congr ?_
    rw [chan_commutate]
    simp only [hs]
    rfl
  unfold State.closedCommutation
  simp only [if_true, hmoved]

theorem lostSyncStep_below {v : State} (h : (v.chan c).sq.miss < (v.chan c).active.missLimit) : v.lostSyncStep c = v :=
  if_neg fun hv => Nat.not_le.2 h hv.2

theorem lostSyncStep_trips {v : State} (hs : (v.chan c).state = .closed) (h : (v.chan c).active.missLimit ≤ (v.chan c).sq.miss) :
    v.lostSyncStep c = v.enterTripped c .lostSync :=
  (if_pos ⟨hs, h⟩).trans (reachCause_of_driving _ (by rw [hs]; rfl))

end

/-! ### The half-period point (R7, R84) -/

/-- The block with the channel's half-period point taken. -/
def pointTaken (s : State) (c : Chan) (p : HalfPoint) : State :=
  s.modCh c fun k => { k with nextHalf := k.halfAfter p s.tb.h }

theorem chan_pointTaken (s : State) (c : Chan) (p : HalfPoint) :
    (pointTaken s c p).chan c = { s.chan c with nextHalf := (s.chan c).halfAfter p s.tb.h } := State.chan_modCh_same _ _ _

theorem exec_halfPeriodPoint {c : Chan} {s : State} {p : HalfPoint} (hr : s.clockRuns = true)
    (hp : (s.chan c).nextHalf = some p) (hl : later p.time s.tb.now = false) :
    exec (.halfPeriodPoint c) s = .next ((pointTaken s c p).applyCompare c p.time p.peak).settle := by
  show execHalfPeriodPoint c s = _
  simp only [execHalfPeriodPoint, hr, hp, waitUntil_reached hl, done_eq]
  rfl

theorem applyCompare_run {u : State} {c : Chan} {t : Time} {x : Compare} (peak : Bool) (hx : (u.chan c).sq.compare = some x)
    (hd : notBefore t x.due = true) (hs : (u.chan c).state = .align ∨ (u.chan c).state = .ramp) :
    u.applyCompare c t peak = u.advanceRun c t peak := by
  unfold State.applyCompare
  rcases hs with hs | hs <;> simp only [hx, hd, hs, if_true]

theorem applyCompare_closed {u : State} {c : Chan} {t : Time} {x : Compare} (peak : Bool) (hx : (u.chan c).sq.compare = some x)
    (hd : notBefore t x.due = true) (hs : (u.chan c).state = .closed) :
    u.applyCompare c t peak = u.closedCommutation c t peak x.kind := by
  unfold State.applyCompare
  simp only [hx, hd, hs, if_true]

theorem applyCompare_none {u : State} {c : Chan} {t : Time} (peak : Bool)
    (h : (u.chan c).sq.compare = none ∨ ∃ x, (u.chan c).sq.compare = some x ∧ notBefore t x.due = false) :
    u.applyCompare c t peak = u := by
  unfold State.applyCompare
  rcases h with h | ⟨x, h, hd⟩
  · simp only [h]
  · simp only [h, hd, Bool.false_eq_true, if_false]

/-- The gates of one phase after a commutation of a step plan. -/
theorem commutedGates_step {k : Channel} {r : Plan} {b : StepPlan} (hr : k.curPlan = some r) (hb : r.body = .step b) (t : Time)
    (peak : Bool) (h d : Nat) (now : Time) (y : Phase) :
    (commutedGates k t peak h d now).get y =
      (k.gates.get y).commutate (roleOf k.sq.index y) (roleOf (nextIndex k.sq.dir k.sq.index) y) (k.commPoint t peak) h d
        b.cmp.c now := by
  simp [commutedGates, hr, Plan.stepC, hb, Gates.commutate]

theorem commPoint_peak (k : Channel) (t : Time) : k.commPoint t true = .atPeak := rfl

theorem commPoint_start (k : Channel) (t : Time) : k.commPoint t false ≠ .atPeak := by
  unfold Channel.commPoint
  simp only [Bool.false_eq_true, if_false]
  split_ifs <;> decide

/-- R69 for one phase, by the role that it leaves and the role that it takes. -/
theorem phase_commutated (k : Channel) (g : PhaseGate) (t : Time) (peak : Bool) (h d n : Nat) (now : Time) (i j : Nat) (y : Phase) :
    let new := g.commutate (roleOf i y) (roleOf j y) (k.commPoint t peak) h d n now
    (Stays i j y → new = g) ∧
    (¬Stays i j y → floatPhase j = y →
      new.top = false ∧ new.bottom = false ∧ new.topPend = none ∧ new.bottomPend = none) ∧
    (¬Stays i j y → lowPhase j = y →
      new.top = false ∧ new.topPend = none ∧ new.bottom = g.bottom ∧
        (g.bottom = false → new.bottomPend = some (addTicks now d))) ∧
    (¬Stays i j y → highPhase j = y →
      new.bottom = false ∧ new.bottomPend = none ∧ new.top = g.top ∧
        (peak = true → d < h - n → g.top = false → new.topPend = some (addTicks now d)) ∧
        (peak = false ∨ h - n ≤ d → new.topPend = g.topPend)) := by
  intro new
  refine ⟨fun hst => ?_, fun hst hj => ?_, fun hst hj => ?_, fun hst hj => ?_⟩
  · simp only [new, roleOf_eq_of_stays hst, commutate_same]
  · have hr : roleOf i y ≠ .float := fun hi => hst (stays_of_roleOf_eq (hi.trans (roleOf_of_float hj).symm))
    simp only [new, roleOf_of_float hj, commutate_float _ _ _ _ _ _ hr]
    exact PhaseGate.down_outputs _ _ _
  · have hr : roleOf i y ≠ .low := fun hi => hst (stays_of_roleOf_eq (hi.trans (roleOf_of_low hj).symm))
    simp only [new, roleOf_of_low hj, commutate_low _ _ _ _ _ _ hr]
    cases hb : g.bottom <;> simp [PhaseGate.bottomAt, PhaseGate.topDown, hb]
  · have hr : roleOf i y ≠ .high := fun hi => hst (stays_of_roleOf_eq (hi.trans (roleOf_of_high hj).symm))
    simp only [new, roleOf_of_high hj]
    cases peak with
    | true =>
      obtain ⟨htop, hbot, hbp, hlong, hshort⟩ := commutate_high_atPeak g h d n now hr
      exact ⟨hbot, hbp, htop, fun _ => hlong, fun hs => hshort (hs.resolve_left Bool.false_ne_true.symm)⟩
    | false =>
      obtain ⟨htop, hbot, htp, hbp⟩ := commutate_high_atStart g _ h d n now hr (commPoint_start k t)
      exact ⟨hbot, hbp, htop, fun hf => absurd hf Bool.false_ne_true, fun _ => htp⟩

/-! ### The outcomes of a due compare -/

/-- What a half-period point leaves where the channel goes on. -/
def GoesOn (s : State) (c : Chan) (v : State) : Prop :=
  s.sameChannelsBut v c ∧ v.tb = s.tb ∧ v.prot = s.prot ∧ v.sup = s.sup ∧ (v.chan c).nextPlan = (s.chan c).nextPlan ∧
    (v.chan c).active = (s.chan c).active ∧ (v.chan c).slot = (s.chan c).slot

theorem masterSeqNow_moved (s : State) (c : Chan) (p : HalfPoint) (t : Time) (peak : Bool) (st : ChanState)
    (f : StepSeq → StepSeq) : (moved (pointTaken s c p) c t peak st f).masterSeqNow = s.masterSeqNow :=
  State.masterSeqNow_congr rfl rfl

theorem sameChannelsBut_moved (s : State) (c : Chan) (p : HalfPoint) (t : Time) (peak : Bool) (st : ChanState)
    (f : StepSeq → StepSeq) : s.sameChannelsBut (moved (pointTaken s c p) c t peak st f) c := fun _ hx =>
  (chan_moved_other _ t peak st f hx).trans (State.chan_modCh_other _ _ hx)

theorem chan_moved_pointTaken (s : State) (c : Chan) (p : HalfPoint) (t : Time) (peak : Bool) (st : ChanState)
    (f : StepSeq → StepSeq) :
    (moved (pointTaken s c p) c t peak st f).chan c =
      { s.chan c with
        nextHalf := (s.chan c).halfAfter p s.tb.h
        state := st
        sq := f (stepped (s.chan c) t)
        gates := commutedGates (s.chan c) t peak s.tb.h s.tb.d s.tb.now
        curPlan := (s.chan c).curPlan.map (·.withIndex (nextIndex (s.chan c).sq.dir (s.chan c).sq.index)) } := by
  rw [chan_moved, chan_pointTaken]
  rfl

theorem goesOn_moved (s : State) (c : Chan) (p : HalfPoint) (t : Time) (peak : Bool) (st : ChanState)
    (f : StepSeq → StepSeq) : GoesOn s c (moved (pointTaken s c p) c t peak st f) := by
  have chan := chan_moved_pointTaken s c p t peak st f
  exact ⟨sameChannelsBut_moved s c p t peak st f, rfl, rfl, rfl, (congrArg Channel.nextPlan chan :),
    (congrArg Channel.active chan :), (congrArg Channel.slot chan :)⟩

/-- What a commutation at a half-period point makes of the conversion in progress, of the plan and of the gates. -/
def Commutated (s : State) (c : Chan) (p : HalfPoint) (v : State) : Prop :=
  let k := s.chan c
  let next := nextIndex k.sq.dir k.sq.index
  v.sched =
      { s.sched with
        conv := s.sched.conv.map fun v => if v.entry.owner = .chan c then { v with commutated := true } else v } ∧
    (v.chan c).curPlan = k.curPlan.map (·.withIndex next) ∧
    ∀ r b, k.curPlan = some r → r.body = .step b → ∀ y,
      (v.chan c).gates.get y =
        (k.gates.get y).commutate (roleOf k.sq.index y) (roleOf next y) (k.commPoint p.time p.peak) s.tb.h s.tb.d b.cmp.c
          s.tb.now

theorem commutated_moved (s : State) (c : Chan) (p : HalfPoint) (st : ChanState) (f : StepSeq → StepSeq) :
    Commutated s c p (moved (pointTaken s c p) c p.time p.peak st f) := by
  have chan := chan_moved_pointTaken s c p p.time p.peak st f
  refine ⟨moved_sched _ c p.time p.peak st f, (congrArg Channel.curPlan chan :), fun r b hr hb y => ?_⟩
  rw [chan]
  exact commutedGates_step hr hb p.time p.peak s.tb.h s.tb.d s.tb.now y

/-- The block after a run that has failed. -/
def failedRun (s : State) (c : Chan) (p : HalfPoint) (n m : Nat) : State :=
  (((pointTaken s c p).modSq c fun q => { q with qualified := n }).toStopped c).queueEvent .startFailed (some c) m

theorem toStopped_blocks (s : State) (c : Chan) :
    (s.toStopped c).power = s.power ∧ (s.toStopped c).tb = s.tb ∧ (s.toStopped c).prot = s.prot ∧
      (s.toStopped c).sup = s.sup ∧ (s.toStopped c).link = s.link ∧
      (s.toStopped c).sched = { s.sched with timeline := s.sched.timeline.filter fun e => !e.ownedBy c } :=
  ⟨rfl, rfl, rfl, rfl, rfl, rfl⟩

theorem failedRun_blocks (s : State) (c : Chan) (p : HalfPoint) (n m : Nat) :
    (failedRun s c p n m).tb = s.tb ∧ (failedRun s c p n m).prot = s.prot ∧ (failedRun s c p n m).sup = s.sup ∧
      (failedRun s c p n m).sched = { s.sched with timeline := s.sched.timeline.filter fun e => !e.ownedBy c } ∧
      (failedRun s c p n m).link =
        s.link.queueEvent { code := .startFailed, chan := some c, seq := s.masterSeqNow, repeats := 1, detail := m } := by
  obtain ⟨hpower, htb, hprot, hsup, hlink, hsched⟩ :=
    toStopped_blocks ((pointTaken s c p).modSq c fun q => { q with qualified := n }) c
  refine ⟨htb, hprot, hsup, hsched, ?_⟩
  rw [failedRun, State.queueEvent_eq, hlink, State.masterSeqNow_congr hpower htb]
  rfl

/-- What the end of a failed run leaves of its channel (R87). -/
theorem chan_failedRun (s : State) (c : Chan) (p : HalfPoint) (n m : Nat) :
    let k := s.chan c
    let v := failedRun s c p n m
    s.sameChannelsBut v c ∧ (v.chan c).flushed = k.flushed + BitVec.ofNat 32 (s.sched.waiting c) ∧
      (v.chan c).state = .stopped ∧ (v.chan c).trip = k.trip ∧ (v.chan c).slot = k.slot ∧ (v.chan c).curPlan = none ∧
      (v.chan c).nextPlan = none ∧ (v.chan c).sq = { k.sq with compare := none, qualified := n } ∧
      AllOff (v.chan c).gates := by
  intro k v
  have chan : v.chan c = _ := State.chan_toStopped_same ((pointTaken s c p).modSq c fun q => { q with qualified := n }) c
  rw [State.chan_endRun_same, State.chan_modSq_same, chan_pointTaken] at chan
  refine ⟨fun y hy => (State.chan_toStopped_other _ hy).trans
      ((State.chan_modCh_other _ _ hy).trans (State.chan_modCh_other _ _ hy)), (congrArg Channel.flushed chan :),
    (congrArg Channel.state chan :), (congrArg Channel.trip chan :), (congrArg Channel.slot chan :),
    (congrArg Channel.curPlan chan :), (congrArg Channel.nextPlan chan :), (congrArg Channel.sq chan :), ?_⟩
  rw [chan]
  exact allOff_allOff _ _ _

section

variable {s : State} {c : Chan} {p : HalfPoint} {x : Compare}

theorem state_pointTaken {st : ChanState} (h : (s.chan c).state = st) : ((pointTaken s c p).chan c).state = st := by
  rwa [chan_pointTaken]

theorem sq_pointTaken (s : State) (c : Chan) (p : HalfPoint) : ((pointTaken s c p).chan c).sq = (s.chan c).sq := by
  rw [chan_pointTaken]

theorem qualifiedAfter_pointTaken (s : State) (c : Chan) (p : HalfPoint) :
    qualifiedAfter ((pointTaken s c p).chan c) = qualifiedAfter (s.chan c) := by
  rw [chan_pointTaken]
  rfl

theorem point_run (hx : (s.chan c).sq.compare = some x) (hd : notBefore p.time x.due = true)
    (hs : (s.chan c).state = .align ∨ (s.chan c).state = .ramp) :
    (pointTaken s c p).applyCompare c p.time p.peak = (pointTaken s c p).advanceRun c p.time p.peak :=
  applyCompare_run p.peak (by rwa [sq_pointTaken]) hd (hs.imp state_pointTaken state_pointTaken)

theorem point_step {g : Segment} (hx : (s.chan c).sq.compare = some x) (hd : notBefore p.time x.due = true)
    (hs : (s.chan c).state = .ramp) (hg : (s.chan c).sq.profile[(s.chan c).sq.seg]? = some (some g))
    (hj : (s.chan c).sq.j + 1 < g.repeats) :
    (pointTaken s c p).applyCompare c p.time p.peak =
      moved (pointTaken s c p) c p.time p.peak .ramp fun q =>
        { q with
          qualified := qualifiedAfter (s.chan c)
          j := (s.chan c).sq.j + 1
          compare := forcedAt p.time (g.stepTicks ((s.chan c).sq.j + 1)) } := by
  have h := (point_run hx hd (.inr hs)).trans (advanceRun_step p.time p.peak (state_pointTaken hs)
    (segment_of_place (by rwa [sq_pointTaken])) (by rwa [sq_pointTaken]))
  rwa [qualifiedAfter_pointTaken, sq_pointTaken] at h

/-- The channel after it has gone from ALIGN to ALIGN. -/
def held (s : State) (c : Chan) (p : HalfPoint) (f : Segment) : State :=
  (pointTaken s c p).modCh c fun k =>
    { k with
      state := .align
      sq := { k.sq with seg := (s.chan c).sq.seg + 1, j := 0, qualified := 0, compare := forcedAt p.time f.hold } }

theorem chan_held (s : State) (c : Chan) (p : HalfPoint) (f : Segment) :
    (held s c p f).chan c =
      { s.chan c with
        nextHalf := (s.chan c).halfAfter p s.tb.h
        state := .align
        sq :=
          { (s.chan c).sq with
            seg := (s.chan c).sq.seg + 1, j := 0, qualified := 0, compare := forcedAt p.time f.hold } } := by
  rw [held, State.chan_modCh_same, chan_pointTaken]

theorem goesOn_held (s : State) (c : Chan) (p : HalfPoint) (f : Segment) : GoesOn s c (held s c p f) := by
  have chan := chan_held s c p f
  exact ⟨fun y hy => (State.chan_modCh_other _ _ hy).trans (State.chan_modCh_other _ _ hy), rfl, rfl, rfl,
    (congrArg Channel.nextPlan chan :), (congrArg Channel.active chan :), (congrArg Channel.slot chan :)⟩

theorem point_holds {f : Segment} (hx : (s.chan c).sq.compare = some x) (hd : notBefore p.time x.due = true)
    (hs : (s.chan c).state = .align) (hseg : (s.chan c).sq.seg < (s.chan c).sq.last)
    (hf : (s.chan c).sq.profile[(s.chan c).sq.seg + 1]? = some (some f)) (hk : f.kind = .align) :
    (pointTaken s c p).applyCompare c p.time p.peak = held s c p f := by
  have h := (point_run hx hd (.inl hs)).trans (advanceRun_hold (f := f) p.time p.peak (state_pointTaken hs)
    (by rwa [sq_pointTaken]) (segmentAt_of_place (by rwa [sq_pointTaken])) hk)
  rwa [sq_pointTaken] at h

/-- The compare of a FORCED run ends its segment. -/
def Ends (k : Channel) : Prop :=
  k.state = .align ∨ (k.state = .ramp ∧ ∃ g, k.sq.profile[k.sq.seg]? = some (some g) ∧ g.repeats ≤ k.sq.j + 1)

theorem Ends.forced {k : Channel} (h : Ends k) : k.state = .align ∨ k.state = .ramp := h.imp_right And.left

theorem Ends.endsSegment (h : Ends (s.chan c)) :
    EndsSegment ((pointTaken s c p).chan c) ((pointTaken s c p).segment c) := by
  rcases h with h | ⟨h, g, hg, hj⟩
  · exact .inl (state_pointTaken h)
  · refine .inr ⟨state_pointTaken h, ?_⟩
    rw [segment_of_place (g := g) (by rwa [sq_pointTaken]), sq_pointTaken]
    exact hj

theorem point_enters {f : Segment} (hx : (s.chan c).sq.compare = some x) (hd : notBefore p.time x.due = true)
    (hs : Ends (s.chan c)) (hseg : (s.chan c).sq.seg < (s.chan c).sq.last)
    (hf : (s.chan c).sq.profile[(s.chan c).sq.seg + 1]? = some (some f)) (hk : (s.chan c).state = .ramp ∨ f.kind = .ramp) :
    (pointTaken s c p).applyCompare c p.time p.peak =
      moved (pointTaken s c p) c p.time p.peak (runState f) fun q =>
        { q with
          seg := (s.chan c).sq.seg + 1
          j := 0
          qualified := qualifiedAfter (s.chan c)
          compare := beginsWith p.time f } := by
  have h := (point_run hx hd hs.forced).trans (advanceRun_enters (f := f) p.time p.peak rfl hs.endsSegment
    (by rwa [sq_pointTaken]) (segmentAt_of_place (by rwa [sq_pointTaken])) (hk.imp_left state_pointTaken))
  rwa [qualifiedAfter_pointTaken, sq_pointTaken] at h

theorem point_fails (hx : (s.chan c).sq.compare = some x) (hd : notBefore p.time x.due = true) (hs : Ends (s.chan c))
    (hseg : (s.chan c).sq.last ≤ (s.chan c).sq.seg) :
    (pointTaken s c p).applyCompare c p.time p.peak =
      failedRun s c p (qualifiedAfter (s.chan c)) (s.chan c).sq.last := by
  have h := (point_run hx hd hs.forced).trans (advanceRun_fails p.time p.peak rfl hs.endsSegment (by rwa [sq_pointTaken]))
  rwa [qualifiedAfter_pointTaken, sq_pointTaken] at h

theorem point_found (hx : (s.chan c).sq.compare = some x) (hd : notBefore p.time x.due = true) (hs : (s.chan c).state = .closed)
    (hk : x.kind ≠ .blind) :
    (pointTaken s c p).applyCompare c p.time p.peak =
      moved (pointTaken s c p) c p.time p.peak .closed fun q => { q with compare := blindAt p.time (s.chan c).sq } := by
  have h := (applyCompare_closed (u := pointTaken s c p) p.peak (by rwa [sq_pointTaken]) hd (state_pointTaken hs)).trans
    (closedCommutation_found p.time p.peak (state_pointTaken hs) hk)
  rwa [sq_pointTaken] at h

/-- A BLIND commutation with its miss and its record. -/
def missed (s : State) (c : Chan) (p : HalfPoint) : State :=
  (moved (pointTaken s c p) c p.time p.peak .closed fun q =>
    { q with compare := blindAt p.time (s.chan c).sq, miss := min 7 ((s.chan c).sq.miss + 1) }).queueEvent .blindStep (some c)
      (min 7 ((s.chan c).sq.miss + 1))

theorem chan_missed (s : State) (c : Chan) (p : HalfPoint) :
    (missed s c p).chan c =
      { s.chan c with
        nextHalf := (s.chan c).halfAfter p s.tb.h
        state := .closed
        sq :=
          { stepped (s.chan c) p.time with
            compare := blindAt p.time (s.chan c).sq, miss := min 7 ((s.chan c).sq.miss + 1) }
        gates := commutedGates (s.chan c) p.time p.peak s.tb.h s.tb.d s.tb.now
        curPlan := (s.chan c).curPlan.map (·.withIndex (nextIndex (s.chan c).sq.dir (s.chan c).sq.index)) } := by
  rw [missed, State.chan_queueEvent, chan_moved_pointTaken]

theorem sameChannelsBut_missed (s : State) (c : Chan) (p : HalfPoint) : s.sameChannelsBut (missed s c p) c := fun y hy => by
  rw [missed, State.chan_queueEvent, sameChannelsBut_moved s c p _ _ _ _ y hy]

theorem missed_blocks (s : State) (c : Chan) (p : HalfPoint) :
    (missed s c p).power = s.power ∧ (missed s c p).tb = s.tb ∧ (missed s c p).prot = s.prot ∧ (missed s c p).sup = s.sup := by
  unfold missed
  rw [State.queueEvent_power, State.queueEvent_tb, State.queueEvent_prot, State.queueEvent_sup]
  exact ⟨rfl, rfl, rfl, rfl⟩

theorem missed_link (s : State) (c : Chan) (p : HalfPoint) :
    (missed s c p).link =
      s.link.queueEvent
        { code := .blindStep, chan := some c, seq := s.masterSeqNow, repeats := 1, detail := min 7 ((s.chan c).sq.miss + 1) } := by
  rw [← masterSeqNow_moved s c p p.time p.peak .closed]
  rfl

theorem goesOn_missed (s : State) (c : Chan) (p : HalfPoint) : GoesOn s c (missed s c p) := by
  obtain ⟨_, htb, hprot, hsup⟩ := missed_blocks s c p
  have chan := chan_missed s c p
  exact ⟨sameChannelsBut_missed s c p, htb, hprot, hsup, (congrArg Channel.nextPlan chan :), (congrArg Channel.active chan :),
    (congrArg Channel.slot chan :)⟩

theorem commutated_missed (s : State) (c : Chan) (p : HalfPoint) : Commutated s c p (missed s c p) := by
  unfold missed Commutated
  rw [State.queueEvent_sched, State.chan_queueEvent]
  exact commutated_moved s c p _ _

theorem point_blind (hx : (s.chan c).sq.compare = some x) (hd : notBefore p.time x.due = true) (hs : (s.chan c).state = .closed)
    (hk : x.kind = .blind) : (pointTaken s c p).applyCompare c p.time p.peak = (missed s c p).lostSyncStep c := by
  have h := applyCompare_closed p.peak (u := pointTaken s c p) (by rwa [sq_pointTaken]) hd (state_pointTaken hs)
  rw [hk, closedCommutation_blind _ _ (state_pointTaken hs), sq_pointTaken] at h
  exact h

theorem missed_below (h : min 7 ((s.chan c).sq.miss + 1) < (s.chan c).active.missLimit) :
    (missed s c p).lostSyncStep c = missed s c p := lostSyncStep_below (by rwa [chan_missed])

theorem missed_trips (h : (s.chan c).active.missLimit ≤ min 7 ((s.chan c).sq.miss + 1)) :
    (missed s c p).lostSyncStep c = (missed s c p).enterTripped c .lostSync :=
  lostSyncStep_trips (by rw [chan_missed]) (by rwa [chan_missed])

/-- The trip of a channel whose misses have reached the limit. -/
theorem missed_tripped (s : State) (c : Chan) (p : HalfPoint) :
    let v := (missed s c p).enterTripped c .lostSync
    let n := min 7 ((s.chan c).sq.miss + 1)
    s.sameChannelsBut v c ∧ (v.chan c).state = .tripped ∧ (v.chan c).safe = some (s.chan c).active.safe ∧
      (v.chan c).trip = some { first := .lostSync, seq := s.masterSeqNow, further := 0 } ∧
      (v.chan c).sq = { stepped (s.chan c) p.time with miss := n } ∧ (v.chan c).curPlan = none ∧
      (v.chan c).nextPlan = none ∧
      v.link =
        (s.link.queueEvent { code := .blindStep, chan := some c, seq := s.masterSeqNow, repeats := 1, detail := n }).queueEvent
          { code := .trip, chan := some c, seq := s.masterSeqNow, repeats := 1, detail := TripCause.lostSync.code } := by
  intro v n
  have chan : v.chan c = _ := State.chan_enterTripped_same (missed s c p) c .lostSync
  rw [State.chan_endRun_same, chan_missed] at chan
  obtain ⟨hpower, htb, _, _⟩ := missed_blocks s c p
  have hseq : (missed s c p).masterSeqNow = s.masterSeqNow := State.masterSeqNow_congr hpower htb
  rw [hseq] at chan
  refine ⟨fun y hy => (State.chan_enterTripped_other _ _ hy).trans (sameChannelsBut_missed s c p y hy),
    (congrArg Channel.state chan :), (congrArg Channel.safe chan :), (congrArg Channel.trip chan :),
    (congrArg Channel.sq chan :), (congrArg Channel.curPlan chan :), (congrArg Channel.nextPlan chan :), ?_⟩
  rw [enterTripped_link, missed_link, hseq]

end

/-- Settles O50: what `applyCompare` does, by the channel's state and the place in the run. -/
theorem halfPeriodPointAppliesADueCompare : Obligations.HalfPeriodPointAppliesADueCompare := by
  refine ⟨fun c s p hr hp hl hx => ?_, fun c s p x hr hp hl hx hd => ?_, fun c s x hr hx hreached hl => ?_⟩
  · rw [exec_halfPeriodPoint hr hp hl, applyCompare_none p.peak (by rwa [sq_pointTaken])]
    rfl
  · have hrun := exec_halfPeriodPoint hr hp hl
    intro k q run record next stepped' compare qualified conv goesOn commutated stands
    have hgoes : ∀ v, (pointTaken s c p).applyCompare c p.time p.peak = v → GoesOn s c v → goesOn v := by
      rintro v rfl hv
      exact ⟨hrun, hv⟩
    have hcomm : ∀ v, Commutated s c p v → commutated v := by
      rintro v ⟨hsched, hplan, hgates⟩
      refine ⟨hsched, hplan, fun r b hr hb y => ?_⟩
      have hphase := phase_commutated k (k.gates.get y) p.time p.peak s.tb.h s.tb.d b.cmp.c s.tb.now q.index
        (nextIndex q.dir q.index) y
      rw [← hgates r b hr hb y] at hphase
      exact hphase
    refine ⟨fun g hs hg hj => ?_, fun hs => ⟨fun f hseg hf => ⟨fun ha hk => ?_, fun hk => ?_⟩, fun hseg => ?_⟩,
      fun hs => ⟨fun hk => ?_, fun hk hm => ?_, fun hk hm => ?_⟩⟩
    · exact ⟨_, hgoes _ (point_step hx hd hs hg hj) (goesOn_moved ..), hcomm _ (commutated_moved ..), rfl,
        (congrArg Channel.state (chan_moved_pointTaken ..) :), (congrArg Channel.sq (chan_moved_pointTaken ..) :)⟩
    · have chan := chan_held s c p f
      exact ⟨_, hgoes _ (point_holds hx hd ha hseg hf hk) (goesOn_held ..),
        ⟨rfl, (congrArg Channel.curPlan chan :), (congrArg Channel.gates chan :)⟩, rfl, (congrArg Channel.state chan :),
        (congrArg Channel.sq chan :)⟩
    · exact ⟨_, hgoes _ (point_enters hx hd hs hseg hf hk) (goesOn_moved ..), hcomm _ (commutated_moved ..), rfl,
        (congrArg Channel.state (chan_moved_pointTaken ..) :), (congrArg Channel.sq (chan_moved_pointTaken ..) :)⟩
    · obtain ⟨hothers, hflushed, hstate, htrip, hslot, hcur, hnext, hsq, hoff⟩ := chan_failedRun s c p (qualifiedAfter k) q.last
      obtain ⟨htb, hprot, hsup, hsched, hlink⟩ := failedRun_blocks s c p (qualifiedAfter k) q.last
      exact ⟨_, hrun.trans (congrArg (fun v => Host.Outcome.next v.settle) (point_fails hx hd hs hseg)), hothers, htb, hprot, hsup,
        (congrArg Scheduler.conv hsched :), hsched ▸ waiting_of_flushed s.sched c, hflushed, hstate, htrip, hslot, hcur, hnext, hsq,
        hoff, hlink⟩
    · exact ⟨_, hgoes _ (point_found hx hd hs hk) (goesOn_moved ..), hcomm _ (commutated_moved ..), rfl,
        (congrArg Channel.state (chan_moved_pointTaken ..) :), (congrArg Channel.sq (chan_moved_pointTaken ..) :)⟩
    · have chan := chan_missed s c p
      exact ⟨_, hgoes _ ((point_blind hx hd hs hk).trans (missed_below hm)) (goesOn_missed ..),
        hcomm _ (commutated_missed ..), missed_link .., (congrArg Channel.state chan :), (congrArg Channel.sq chan :)⟩
    · obtain ⟨hothers, hrest⟩ := missed_tripped s c p
      obtain ⟨hstate, hsafe, htrip, hsq, hcur, hnext, hlink⟩ := hrest
      have htb := (enterTripped_tb (missed s c p) c .lostSync).trans (missed_blocks s c p).2.1
      exact ⟨_, hrun.trans (congrArg (fun v => Host.Outcome.next v.settle) ((point_blind hx hd hs hk).trans (missed_trips hm))),
        hothers, htb, waiting_of_flushed _ _, hstate, hsafe, htrip, hsq, hcur, hnext, hlink⟩
  · show execCommutationDue c s = _
    simp only [execCommutationDue, hr, hx, hreached, waitUntil_reached hl, done_eq]
    rfl

end Sys2Proof.HalfPeriod

/-!
PROOFS. The period start of a channel: the requests of a plan in the timeline, the plan turn as one update of the block, and the work of
each state.
-/

namespace Sys2Proof.PeriodStart

open Sys2Proof Sys2Proof.Machine Sys2Proof.Motor Sys2Proof.Edges Sys2Proof.SixStep Sys2Proof.Currents Sys2Proof.HalfPeriod

/-! ### A plan's requests (R74, R105, R106) -/

/-- The block with another timeline and another requested count of a channel. -/
def withRequests (s : State) (c : Chan) (tl : List Entry) (n : BitVec 32) : State :=
  ({ s with sched := { s.sched with timeline := tl } } : State).modCh c fun k => { k with requested := n }

theorem withRequests_self (s : State) (c : Chan) : withRequests s c s.sched.timeline (s.chan c).requested = s := by
  cases c <;> rfl

theorem withRequests_twice (s : State) (c : Chan) (tl tl' : List Entry) (n n' : BitVec 32) :
    withRequests (withRequests s c tl n) c tl' n' = withRequests s c tl' n' := by
  cases c <;> rfl

theorem chan_withRequests (s : State) (c : Chan) (tl : List Entry) (n : BitVec 32) :
    (withRequests s c tl n).chan c = { s.chan c with requested := n } := State.chan_modCh_same _ _ _

/-- The entry of a request in the timeline. -/
def requestEntry (q : Scheduler) (c : Chan) (t : Time) (seq : Seq) (r : PlanRequest) : Entry :=
  { slot := slotOf c r.purpose, owner := .chan c, purpose := r.purpose, due := addTicks t r.due, tol := some r.tol,
    level := q.level (slotOf c r.purpose), seq := seq, merged := none }

theorem insertRequest_of_free {s : State} {c : Chan} {r : PlanRequest} (t : Time) (seq : Seq)
    (h : s.sched.occupied (slotOf c r.purpose) = false) :
    s.insertRequest c t seq r =
      withRequests s c (insertEntry (requestEntry s.sched c t seq r) s.sched.timeline) ((s.chan c).requested + 1) := by
  unfold State.insertRequest
  simp only [h, Bool.false_eq_true, if_false]
  exact modCh_congr rfl

theorem insertRequest_of_occupied {s : State} {c : Chan} {r : PlanRequest} (t : Time) (seq : Seq)
    (h : s.sched.occupied (slotOf c r.purpose) = true) : s.insertRequest c t seq r = s := if_pos h

/-- Requests whose slots are apart and free enter the timeline, each once, and are counted. -/
def Enter (s : State) (c : Chan) (t : Time) (seq : Seq) (rs : List PlanRequest) (tl : List Entry) (n : BitVec 32) : Prop :=
  (rs.map fun r => slotOf c r.purpose).Nodup → (∀ r ∈ rs, ∀ e ∈ s.sched.timeline, e.slot ≠ slotOf c r.purpose) →
    tl.Perm (rs.map (requestEntry s.sched c t seq) ++ s.sched.timeline) ∧
      n = (s.chan c).requested + BitVec.ofNat 32 rs.length

theorem insertAll_enter (c : Chan) (t : Time) (seq : Seq) (rs : List PlanRequest) :
    ∀ s : State, ∃ tl n, rs.foldl (fun a r => a.insertRequest c t seq r) s = withRequests s c tl n ∧
      Enter s c t seq rs tl n := by
  induction rs with
  | nil => exact fun s => ⟨_, _, (withRequests_self s c).symm, fun _ _ => ⟨.refl _, by simp⟩⟩
  | cons r rs ih =>
    intro s
    cases ho : s.sched.occupied (slotOf c r.purpose) with
    | true =>
      obtain ⟨tl, n, hfold, _⟩ := ih s
      refine ⟨tl, n, ?_, fun _ hfree => ?_⟩
      · rw [List.foldl_cons, insertRequest_of_occupied t seq ho, hfold]
      · obtain ⟨e, he, hs⟩ := List.any_eq_true.1 ho
        exact absurd (beq_iff_eq.1 hs) (hfree r (List.mem_cons_self ..) e he)
    | false =>
      obtain ⟨tl, n, hfold, henter⟩ := ih (s.insertRequest c t seq r)
      rw [insertRequest_of_free t seq ho] at hfold henter
      refine ⟨tl, n, ?_, fun hnodup hfree => ?_⟩
      · rw [List.foldl_cons, insertRequest_of_free t seq ho, hfold, withRequests_twice]
      · obtain ⟨hnew, hrest⟩ := List.nodup_cons.1 hnodup
        have hfree' : ∀ x ∈ rs, ∀ e ∈ insertEntry (requestEntry s.sched c t seq r) s.sched.timeline,
            e.slot ≠ slotOf c x.purpose := by
          intro x hx e he
          rcases List.mem_cons.1 ((perm_insertEntry _ _).mem_iff.1 he) with rfl | he
          · exact fun h => hnew (List.mem_map.2 ⟨x, hx, h.symm⟩)
          · exact hfree x (List.mem_cons_of_mem _ hx) e he
        obtain ⟨hperm, hn⟩ := henter hrest hfree'
        refine ⟨?_, ?_⟩
        · exact hperm.trans ((List.Perm.append_left _ (perm_insertEntry _ _)).trans List.perm_middle)
        · rw [hn, chan_withRequests, List.length_cons, BitVec.ofNat_add, BitVec.add_comm (BitVec.ofNat 32 rs.length), ← BitVec.add_assoc]
          rfl

/-! ### The plan turn (R32, R83) -/

theorem requests_withIndex (n : Plan) (i : Nat) : (n.withIndex i).requests = n.requests := by
  unfold Plan.withIndex
  split <;> rfl

theorem seq_withIndex (n : Plan) (i : Nat) : (n.withIndex i).seq = n.seq := by
  unfold Plan.withIndex
  split <;> rfl

theorem stepC_withIndex (n : Plan) (i : Nat) : (n.withIndex i).stepC.isSome = true ↔ ∃ x, n.body = .step x := by
  unfold Plan.withIndex Plan.stepC
  cases hb : n.body <;> simp [hb]

/-- The sequencer of a run that begins at t in a segment (R83). -/
def runBegun (g : Segment) (blanking : Nat) (t : Time) (q : StepSeq) : StepSeq :=
  match g.kind with
  | .align => { q with compare := beginsWith t g }
  | .ramp => { q with lastComm := some t, blanking := blanking, found := false, compare := beginsWith t g }

theorem runBegins_eq (s : State) (c : Chan) (t : Time) :
    s.runBegins c t =
      s.modCh c fun k => { k with sq := runBegun (s.segment c) (s.chan c).active.blanking t k.sq } := by
  unfold State.runBegins
  cases hk : (s.segment c).kind <;>
    simp only [hk, State.setCompare, State.modSq, modCh_modCh, runBegun, beginsWith, forcedAt]

/-- The plan that becomes current begins a run: a step plan with none before it. -/
def runStarts (k : Channel) (n : Plan) : Bool := k.curPlan.isNone && (n.withIndex k.sq.index).stepC.isSome

/-- The channel when its next plan has become current, with its requested count. -/
def turned (s : State) (c : Chan) (t : Time) (r : BitVec 32) : Channel :=
  match (s.chan c).nextPlan with
  | none => { s.chan c with curPlan := none }
  | some n =>
    { planMoved s c t n (s.chan c) with
      requested := r
      sq :=
        if runStarts (s.chan c) n then runBegun (s.segment c) (s.chan c).active.blanking t (s.chan c).sq
        else (s.chan c).sq }

theorem turned_some {s : State} {c : Chan} {n : Plan} (hn : (s.chan c).nextPlan = some n) (t : Time) (r : BitVec 32) :
    turned s c t r =
      { planMoved s c t n (s.chan c) with
        requested := r
        sq :=
          if runStarts (s.chan c) n then runBegun (s.segment c) (s.chan c).active.blanking t (s.chan c).sq
          else (s.chan c).sq } := by
  unfold turned
  rw [hn]

/-- What the next plan's requests make of the timeline and of the requested count. -/
def Entered (s : State) (c : Chan) (t : Time) (tl : List Entry) (r : BitVec 32) : Prop :=
  match (s.chan c).nextPlan with
  | none => tl = s.sched.timeline ∧ r = (s.chan c).requested
  | some n => Enter s c t n.seq n.requests tl r

/-- The block with another timeline and a channel replaced. -/
def replaced (s : State) (c : Chan) (tl : List Entry) (k : Channel) : State :=
  ({ s with sched := { s.sched with timeline := tl } } : State).modCh c fun _ => k

theorem chan_replaced (s : State) (c : Chan) (tl : List Entry) (k : Channel) : (replaced s c tl k).chan c = k :=
  State.chan_modCh_same _ _ _

theorem chan_replaced_other (s : State) {c x : Chan} (tl : List Entry) (k : Channel) (h : x ≠ c) :
    (replaced s c tl k).chan x = s.chan x := State.chan_modCh_other _ _ h

theorem replaced_modCh (s : State) (c : Chan) (tl : List Entry) (k : Channel) (f : Channel → Channel) :
    (replaced s c tl k).modCh c f = replaced s c tl (f k) := modCh_modCh _ _ _ _

theorem withRequests_modCh (s : State) (c : Chan) (f : Channel → Channel) (tl : List Entry) (r : BitVec 32) :
    withRequests (s.modCh c f) c tl r = replaced s c tl { f (s.chan c) with requested := r } := by
  cases c <;> rfl

theorem modCh_eq_replaced (s : State) (c : Chan) (f : Channel → Channel) :
    s.modCh c f = replaced s c s.sched.timeline (f (s.chan c)) := by
  cases c <;> rfl

/-- The handover of a plan replaces the channel and the timeline. -/
theorem planCurrent_eq (s : State) (c : Chan) (t : Time) :
    ∃ tl r, s.planCurrent c t = replaced s c tl (turned s c t r) ∧ Entered s c t tl r := by
  cases hn : (s.chan c).nextPlan with
  | none =>
    refine ⟨s.sched.timeline, (s.chan c).requested, ?_, ?_⟩
    · simp only [State.planCurrent, turned, hn]
      refine (modCh_eq_replaced s c _).trans ?_
      rw [hn]
    · simp only [Entered, hn]
      exact ⟨trivial, trivial⟩
  | some n =>
    obtain ⟨tl, r, hfold, henter⟩ := insertAll_enter c t n.seq n.requests (s.modCh c (planMoved s c t n))
    refine ⟨tl, r, ?_, ?_⟩
    · have hmoved : (s.modCh c (planMoved s c t n)).insertRequests c t (n.withIndex (s.chan c).sq.index) =
          replaced s c tl { planMoved s c t n (s.chan c) with requested := r } := by
        rw [State.insertRequests, requests_withIndex, seq_withIndex, hfold, withRequests_modCh]
      have hseg : (replaced s c tl { planMoved s c t n (s.chan c) with requested := r }).segment c = s.segment c := by
        unfold State.segment State.segmentAt
        rw [chan_replaced]
        rfl
      have hcurrent : s.planCurrent c t =
          if runStarts (s.chan c) n then
            ((s.modCh c (planMoved s c t n)).insertRequests c t (n.withIndex (s.chan c).sq.index)).runBegins c t
          else (s.modCh c (planMoved s c t n)).insertRequests c t (n.withIndex (s.chan c).sq.index) := by
        simp only [State.planCurrent, hn]
        rfl
      rw [hcurrent, hmoved, runBegins_eq, replaced_modCh, hseg, chan_replaced, turned_some hn]
      split_ifs <;> rfl
    · simp only [Entered, hn]
      unfold Enter at henter
      rw [State.chan_modCh_same] at henter
      exact henter

theorem planFor_turned (s : State) (c : Chan) (t : Time) (tl : List Entry) (r : BitVec 32) (q : Seq) :
    (replaced s c tl (turned s c t r)).planFor c q = s.planFor c q := by
  have hchan := chan_replaced s c tl (turned s c t r)
  unfold State.planFor State.segment State.segmentAt
  rw [hchan]
  cases hn : (s.chan c).nextPlan with
  | none =>
    simp only [turned, hn]
    rfl
  | some n =>
    cases hrun : runStarts (s.chan c) n with
    | false =>
      simp only [turned, hn, hrun]
      rfl
    | true =>
      cases hk : (s.segment c).kind <;>
      · simp only [turned, hn, hrun, runBegun, hk]
        rfl

/-- The plan turn replaces the channel and the timeline: the handover, and the plan for the following period. -/
theorem planTurn_eq (s : State) (c : Chan) (t : Time) (m : Seq) :
    ∃ tl r, (s.planCurrent c t).computePlan c m =
        replaced s c tl { turned s c t r with nextPlan := s.planFor c (m + 1) } ∧ Entered s c t tl r := by
  obtain ⟨tl, r, hturn, hentered⟩ := planCurrent_eq s c t
  refine ⟨tl, r, ?_, hentered⟩
  rw [State.computePlan, hturn, planFor_turned, replaced_modCh]

/-! ### The period that has begun (R6, R22) -/

/-- The channel at its period start, before the work of its state. -/
def begunChannel (k : Channel) (t : Time) (m : Seq) (h : Nat) : Channel :=
  { k with
    seq := m
    latest := some t
    nextStart := some (addTicks t (2 * h), m + 1)
    nextHalf := some (halfAfterStart k.nextHalf t h)
    active := match k.live with | some l => k.active.withLive l | none => k.active
    sq :=
      match k.live with
      | some l => if k.active.kind = .step then { k.sq with advance := l.advance } else k.sq
      | none => k.sq
    live := none }

/-- The block with the period begun. -/
def begun (s : State) (c : Chan) (t : Time) (m : Seq) : State := s.modCh c fun _ => begunChannel (s.chan c) t m s.tb.h

theorem chan_begun (s : State) (c : Chan) (t : Time) (m : Seq) :
    (begun s c t m).chan c = begunChannel (s.chan c) t m s.tb.h := State.chan_modCh_same _ _ _

theorem begun_eq (s : State) (c : Chan) (t : Time) (m : Seq) :
    (s.modCh c fun k => k.beginPeriod t m s.tb.h).modCh c Channel.liveInForce = begun s c t m := by
  rw [modCh_modCh]
  refine modCh_congr ?_
  unfold Channel.liveInForce Channel.beginPeriod begunChannel
  cases hl : (s.chan c).live with
  | none => simp only
  | some l => rfl

/-- The work of a period start by the channel's state (R23). -/
theorem periodWork_eq (s : State) (c : Chan) (t : Time) (m : Seq) :
    s.periodWork c t m =
      match (s.chan c).state with
      | .vector => (begun s c t m).vectorPeriod c t m
      | .align | .ramp | .closed => (begun s c t m).stepPeriod c t m
      | .calibrating => (begun s c t m).calPeriod c t m
      | .unconfigured | .stopped | .braking | .tripped => begun s c t m := by
  unfold State.periodWork
  simp only [begun_eq, chan_begun]
  show (match (s.chan c).state with
    | .vector => _ | .align => _ | .ramp => _ | .closed => _ | .calibrating => _ | .unconfigured => _ | .stopped => _
    | .braking => _ | .tripped => _) = _
  cases (s.chan c).state <;> rfl

theorem exec_channelPeriodStart {c : Chan} {s : State} {t : Time} {m : Seq} (hr : s.clockRuns = true)
    (hn : (s.chan c).nextStart = some (t, m)) (hl : later t s.tb.now = false) :
    exec (.channelPeriodStart c) s = .next (s.periodWork c t m).settle := by
  show execChannelPeriodStart c s = _
  simp only [execChannelPeriodStart, hr, hn, waitUntil_reached hl, done_eq]

/-! ### What stands when the plan turn comes -/

/-- In v the period start of a channel of s has done its work up to the plan turn: of the channel the currents, the slot, the modulator, the
sequencer's settings and the calibration's period count can have moved, of the rest of the block the link. -/
structure Carried (s : State) (c : Chan) (t : Time) (m : Seq) (v : State) : Prop where
  others : s.sameChannelsBut v c
  tb : v.tb = s.tb
  prot : v.prot = s.prot
  sup : v.sup = s.sup
  power : v.power = s.power
  sched : v.sched = s.sched
  chan : v.chan c =
    { begunChannel (s.chan c) t m s.tb.h with
      rb := (v.chan c).rb, slot := (v.chan c).slot, vm := (v.chan c).vm, sq := (v.chan c).sq,
      calPeriods := (v.chan c).calPeriods }
  index : (v.chan c).sq.index = (s.chan c).sq.index

theorem Carried.modCh {s v : State} {c : Chan} {t : Time} {m : Seq} (h : Carried s c t m v) {f : Channel → Channel} {k : Channel}
    (hf : f (v.chan c) = k)
    (hk : k = { v.chan c with rb := k.rb, slot := k.slot, vm := k.vm, sq := k.sq, calPeriods := k.calPeriods })
    (hi : k.sq.index = (v.chan c).sq.index) : Carried s c t m (v.modCh c f) := by
  have hchan : (v.modCh c f).chan c = k := (State.chan_modCh_same _ _ _).trans hf
  refine ⟨fun x hx => (State.chan_modCh_other _ _ hx).trans (h.others x hx), h.tb, h.prot, h.sup, h.power, h.sched, ?_, ?_⟩
  · rw [hchan]
    refine hk.trans ?_
    rw [h.chan]
  · rw [hchan, hi, h.index]

theorem Carried.queued {s v : State} {c : Chan} {t : Time} {m : Seq} (h : Carried s c t m v) (code : EventCode) (x : Option Chan)
    (n : Nat) : Carried s c t m (v.queueEvent code x n) :=
  ⟨h.others, h.tb, h.prot, h.sup, h.power, h.sched, h.chan, h.index⟩

theorem carried_begun (s : State) (c : Chan) (t : Time) (m : Seq) : Carried s c t m (begun s c t m) := by
  refine ⟨fun x hx => State.chan_modCh_other _ _ hx, rfl, rfl, rfl, rfl, rfl, ?_, ?_⟩ <;> rw [chan_begun]
  unfold begunChannel
  simp only
  split
  · split <;> rfl
  · rfl

theorem Carried.masterSeqNow {s v : State} {c : Chan} {t : Time} {m : Seq} (h : Carried s c t m v) :
    v.masterSeqNow = s.masterSeqNow := State.masterSeqNow_congr h.power h.tb

/-! ### The plan turn after the work -/

theorem startPlace_eq (rs : List PlanRequest) (ps : List Purpose) :
    startPlace rs ps = if ∃ r ∈ rs, r.purpose ∈ ps then Place.waiting else .notPlaced :=
  if_congr (by simp) rfl rfl

theorem newWork_withIndex (n : Plan) (i : Nat) (t : Time) :
    newWork (n.withIndex i) t =
      if n.body = .cal then none
      else some
        { plan := n.withIndex i
          start := t
          placeA := startPlace n.requests [.shuntA]
          placeB := startPlace n.requests [.shuntB, .sense]
          sampled := none } := by
  have hreq := requests_withIndex n i
  unfold newWork
  rw [hreq]
  unfold Plan.withIndex
  cases hb : n.body <;> simp [hb]

section

variable {s v : State} {c : Chan} {t : Time} {m : Seq}

theorem Carried.plans (h : Carried s c t m v) :
    (v.chan c).nextPlan = (s.chan c).nextPlan ∧ (v.chan c).curPlan = (s.chan c).curPlan ∧
      (v.chan c).gates = (s.chan c).gates ∧ (v.chan c).requested = (s.chan c).requested := by
  rw [h.chan]
  exact ⟨rfl, rfl, rfl, rfl⟩

/-- The plan turn of a channel whose period start has come so far. -/
theorem Carried.plansMoved (h : Carried s c t m v) {tl : List Entry} {r : BitVec 32} {p : Option Plan} (he : Entered v c t tl r) :
    s.plansMoved (replaced v c tl { turned v c t r with nextPlan := p }) c t := by
  obtain ⟨hnext, hcur, hgates, hreq⟩ := h.plans
  unfold State.plansMoved
  rw [chan_replaced]
  cases hn : (s.chan c).nextPlan with
  | none =>
    simp only [Entered, hnext, hn] at he
    obtain ⟨rfl, _⟩ := he
    simp only [turned, hnext, hn]
    refine ⟨trivial, ?_, hreq⟩
    show { v.sched with timeline := v.sched.timeline } = s.sched
    exact h.sched
  | some n =>
    simp only [Entered, hnext, hn] at he
    rw [turned_some (hnext.trans hn)]
    refine ⟨?_, ?_, ?_, fun hnodup hfree => ?_⟩
    · simp only [planMoved, h.index]
    · simp only [planMoved, h.index, newWork_withIndex, startPlace_eq]
    · exact congrArg (·.conv) h.sched
    · obtain ⟨hperm, hcount⟩ := he hnodup (h.sched ▸ hfree)
      rw [h.sched] at hperm
      refine ⟨fun x hx => ?_, fun e hs => ?_, ?_, ?_⟩
      · exact hperm.mem_iff.2 (List.mem_append_left _ (List.mem_map_of_mem hx))
      · exact hperm.mem_iff.2 (List.mem_append_right _ hs)
      · refine hperm.length_eq.trans ?_
        rw [List.length_append, List.length_map, Nat.add_comm]
      · exact hreq ▸ hcount

theorem Carried.gatesMoved (h : Carried s c t m v) {tl : List Entry} {r : BitVec 32} {p : Option Plan} :
    s.gatesMoved (replaced v c tl { turned v c t r with nextPlan := p }) c := by
  obtain ⟨hnext, hcur, hgates, _⟩ := h.plans
  refine Gates.becomeCurrent_gatesMoved s _ c (fun hn => ?_) (fun n hn => ?_) <;> rw [chan_replaced]
  · have hnone := hnext.trans (Option.isNone_iff_eq_none.1 hn)
    simp only [turned, hnone]
    exact hgates
  · rw [turned_some (hnext.trans hn)]
    simp only [planMoved, h.index, h.tb, hcur, hgates]

/-- The fields of the channel that the plan turn leaves. -/
theorem turned_fields (v : State) (c : Chan) (t : Time) (r : BitVec 32) :
    turned v c t r =
      { v.chan c with
        curPlan := (turned v c t r).curPlan
        nextPlan := (turned v c t r).nextPlan
        gates := (turned v c t r).gates
        rb := { (v.chan c).rb with work := (turned v c t r).rb.work }
        requested := (turned v c t r).requested
        sq := (turned v c t r).sq } := by
  unfold turned
  split <;> rfl

/-- What the period start leaves where the channel goes on, but for its slot, modulator, sequencer and next plan. -/
def Goes (s : State) (c : Chan) (t : Time) (m : Seq) (rb : Rebuilder) (link : Link) (u : State) : Prop :=
  let k := s.chan c
  let b := begunChannel k t m s.tb.h
  u.link = link ∧ (u.chan c).rb = { rb with work := (u.chan c).rb.work } ∧ s.sameChannelsBut u c ∧ u.tb = s.tb ∧
    u.prot = s.prot ∧ u.sup = s.sup ∧ u.power = s.power ∧ s.plansMoved u c t ∧ s.gatesMoved u c ∧ (u.chan c).state = k.state ∧
    (u.chan c).seq = m ∧ (u.chan c).latest = b.latest ∧ (u.chan c).nextStart = b.nextStart ∧
    (u.chan c).nextHalf = b.nextHalf ∧ (u.chan c).active = b.active ∧ (u.chan c).live = none ∧ (u.chan c).z = k.z ∧
    (u.chan c).trip = k.trip

/-- The sequencer after the plan turn: that of a run that begins, where the first plan of a step run becomes current (R83). -/
def turnedSq (k : Channel) (g : Segment) (blanking : Nat) (t : Time) (q : StepSeq) : StepSeq :=
  match k.nextPlan with
  | none => q
  | some n => if runStarts k n then runBegun g blanking t q else q

theorem Carried.sq_turned (h : Carried s c t m v) (r : BitVec 32) :
    (turned v c t r).sq =
      turnedSq (s.chan c) (v.segment c) (begunChannel (s.chan c) t m s.tb.h).active.blanking t (v.chan c).sq := by
  obtain ⟨hnext, hcur, -, -⟩ := h.plans
  have hactive : (v.chan c).active = (begunChannel (s.chan c) t m s.tb.h).active := by rw [h.chan]
  unfold turnedSq
  cases hn : (s.chan c).nextPlan with
  | none => simp only [turned, hnext, hn]
  | some n =>
    have hruns : runStarts (v.chan c) n = runStarts (s.chan c) n := by rw [runStarts, runStarts, hcur, h.index]
    rw [turned_some (hnext.trans hn)]
    simp only [hruns, hactive]

/-- The plan turn: what it leaves, and the plan for the following period. -/
theorem Carried.turn (h : Carried s c t m v) :
    Goes s c t m (v.chan c).rb v.link ((v.planCurrent c t).computePlan c m) ∧
      ∃ r, ((v.planCurrent c t).computePlan c m).chan c = { turned v c t r with nextPlan := v.planFor c (m + 1) } := by
  obtain ⟨tl, r, hturn, hentered⟩ := planTurn_eq v c t m
  have hfields := turned_fields v c t r
  have hchan := h.chan
  refine ⟨?_, r, by rw [hturn, chan_replaced]⟩
  rw [hturn]
  refine ⟨rfl, ?_, fun x hx => (chan_replaced_other _ _ _ hx).trans (h.others x hx), h.tb, h.prot, h.sup, h.power,
    h.plansMoved hentered, h.gatesMoved, ?_, ?_, ?_, ?_, ?_, ?_, ?_, ?_, ?_⟩
  · rw [chan_replaced]
    exact congrArg Channel.rb hfields
  all_goals rw [chan_replaced, hfields, hchan]
  all_goals rfl

end

/-! ### The close (R130) -/

theorem closeCounted_frame (s : State) (c : Chan) (w : WorkRecord) :
    s.sameChannelsBut (closeCounted s c w) c ∧ (closeCounted s c w).tb = s.tb ∧ (closeCounted s c w).prot = s.prot ∧
      (closeCounted s c w).sup = s.sup ∧ (closeCounted s c w).power = s.power ∧ (closeCounted s c w).sched = s.sched := by
  have formed : s.sameChannelsBut (s.formStep c w) c := fun x hx => State.chan_modCh_other _ _ hx
  unfold closeCounted State.reportStep
  simp only
  split_ifs <;>
    exact ⟨fun x hx => (State.chan_modCh_other _ _ hx).trans (formed x hx), rfl, rfl, rfl, rfl, rfl⟩

section

variable {s : State} {c : Chan} {t : Time} {m : Seq}

/-- The close of a channel that it does not trip changes the rebuilder, and the link by a report. -/
theorem chan_closed (h : (((begun s c t m).closePeriod c).chan c).state = (s.chan c).state) :
    ((begun s c t m).closePeriod c).chan c =
      { begunChannel (s.chan c) t m s.tb.h with rb := (((begun s c t m).closePeriod c).chan c).rb } ∧
      Carried s c t m ((begun s c t m).closePeriod c) := by
  have hbegun := carried_begun s c t m
  have hchan := chan_begun s c t m
  cases hw : ((begun s c t m).chan c).rb.work with
  | none =>
    have hclose : (begun s c t m).closePeriod c = begun s c t m := by
      unfold State.closePeriod
      rw [hw]
    rw [hclose]
    exact ⟨by rw [hchan], hbegun⟩
  | some w =>
    have hstate : ((begun s c t m).chan c).state = (s.chan c).state := by rw [hchan]; rfl
    rw [closePeriod_goesOn hw (not_tripsAtClose_of_state_eq hw (h.trans hstate.symm))]
    obtain ⟨hothers, htb, hprot, hsup, hpower, hsched⟩ := closeCounted_frame (begun s c t m) c w
    have hcounted := chan_closeCounted (begun s c t m) c w
    refine ⟨by rw [hcounted, hchan], fun x hx => (hothers x hx).trans (hbegun.others x hx), htb, hprot, hsup, hpower, hsched, ?_, ?_⟩
    · rw [hcounted, hchan]
    · rw [hcounted]
      exact hbegun.index

theorem closed_tripped (h : (((begun s c t m).closePeriod c).chan c).state ≠ (s.chan c).state) :
    (((begun s c t m).closePeriod c).chan c).state = .tripped := by
  have hstate : ((begun s c t m).chan c).state = (s.chan c).state := by rw [chan_begun]; rfl
  cases hw : ((begun s c t m).chan c).rb.work with
  | none =>
    refine absurd ?_ h
    unfold State.closePeriod
    rw [hw]
    exact hstate
  | some w =>
    by_cases ht : TripsAtClose ((begun s c t m).chan c) w
    · exact (closePeriod_tripped hw ht).1
    · exact absurd ((closePeriod_runsOn hw ht).1.trans hstate) h

/-- A trip at the close ends the work of the period start. -/
theorem periodWork_tripped (hrun : (s.chan c).state.running = true)
    (h : (((begun s c t m).closePeriod c).chan c).state ≠ (s.chan c).state) :
    s.periodWork c t m = (begun s c t m).closePeriod c := by
  have ht := closed_tripped h
  have hvector : ¬(((begun s c t m).closePeriod c).chan c).state = .vector := by rw [ht]; decide
  have hstep : ¬(((begun s c t m).closePeriod c).chan c).state.running = true := by rw [ht]; decide
  rw [periodWork_eq]
  cases hs : (s.chan c).state with
  | vector => exact if_neg hvector
  | align | ramp | closed => exact if_neg hstep
  | unconfigured | stopped | calibrating | braking | tripped => rw [hs] at hrun; cases hrun

end

/-! ### VECTOR (R43 to R45, R55, R56) -/

/-- The modulator after the setpoint at a period start, of a slot that holds no step setpoint. -/
def steppedVm (k : Channel) : VectorMod :=
  match k.slot with
  | some (.vector a w θ) =>
    { amp := a, rate := w, age := 0, marker := false,
      acc := match θ with | some n => n * 65536 | none => (((k.vm.acc : Int) + w) % 201326592).toNat }
  | _ => { k.vm with acc := (((k.vm.acc : Int) + k.vm.rate) % 201326592).toNat, age := min 4095 (k.vm.age + 1) }

theorem vectorStep_eq {k : Channel} (h : ∀ d a, k.slot ≠ some (.step d a)) :
    k.vectorStep = { k with slot := none, vm := steppedVm k } := by
  unfold Channel.vectorStep steppedVm
  cases hs : k.slot with
  | none =>
    simp only
    rw [← hs]
    rfl
  | some x =>
    cases x with
    | vector a w θ => cases θ <;> rfl
    | step d a => exact absurd hs (h d a)

/-- A stale setpoint marks the modulator. -/
def warnedVm (s1 : Nat) (vm : VectorMod) : VectorMod := { vm with marker := vm.marker || decide (s1 ≤ vm.age) }

section

variable {v : State} {c : Chan}

theorem staleWarn_eq (hs : (v.chan c).state = .vector) :
    v.staleWarn c =
      if (v.chan c).active.s1 ≤ (v.chan c).vm.age ∧ (v.chan c).vm.marker = false then
        (v.modCh c fun x => { x with vm := { x.vm with marker := true } }).queueEvent .stale (some c) (v.chan c).vm.age
      else v := if_congr (by simp [hs]) rfl rfl

theorem chan_staleWarn (hs : (v.chan c).state = .vector) :
    (v.staleWarn c).chan c = { v.chan c with vm := warnedVm (v.chan c).active.s1 (v.chan c).vm } := by
  rw [staleWarn_eq hs]
  split_ifs with h
  · rw [State.chan_queueEvent, State.chan_modCh_same]
    simp [warnedVm, h.1]
  · have hmarker : ((v.chan c).vm.marker || decide ((v.chan c).active.s1 ≤ (v.chan c).vm.age)) = (v.chan c).vm.marker := by
      cases hm : (v.chan c).vm.marker <;> simp_all
    rw [warnedVm, hmarker]

theorem staleWarn_link (hs : (v.chan c).state = .vector) :
    (v.staleWarn c).link =
      if (v.chan c).active.s1 ≤ (v.chan c).vm.age ∧ (v.chan c).vm.marker = false then
        v.link.queueEvent
          { code := .stale, chan := some c, seq := v.masterSeqNow, repeats := 1, detail := (v.chan c).vm.age }
      else v.link := by
  rw [staleWarn_eq hs]
  split_ifs <;> rfl

theorem Carried.warned {s : State} {t : Time} {m : Seq} (h : Carried s c t m v) : Carried s c t m (v.staleWarn c) := by
  unfold State.staleWarn
  simp only
  split_ifs
  · exact (h.modCh rfl rfl rfl).queued _ _ _
  · exact h

theorem staleTripStep_below (h : (v.chan c).vm.age < (v.chan c).active.s2) : v.staleTripStep c = v :=
  if_neg fun hv => Nat.not_le.2 h hv.2

theorem staleTripStep_trips (hs : (v.chan c).state = .vector) (h : (v.chan c).active.s2 ≤ (v.chan c).vm.age) :
    v.staleTripStep c = v.enterTripped c .stale :=
  (if_pos ⟨hs, h⟩).trans (reachCause_of_driving _ (by rw [hs]; rfl))

end

section

variable {s : State} {c : Chan} {t : Time} {m : Seq}

/-- The block of a VECTOR channel after the setpoint and the warning. -/
def vectorWarned (s : State) (c : Chan) (t : Time) (m : Seq) : State :=
  (((begun s c t m).closePeriod c).modCh c Channel.vectorStep).staleWarn c

/-- The channel, the link and the rest of the block after the setpoint and the warning. -/
theorem vectorWarned_spec (hs : (s.chan c).state = .vector) (hc : (((begun s c t m).closePeriod c).chan c).state = .vector)
    (hslot : ∀ d a, (s.chan c).slot ≠ some (.step d a)) :
    let b := begunChannel (s.chan c) t m s.tb.h
    let vm := steppedVm (s.chan c)
    (vectorWarned s c t m).chan c =
        { b with rb := (((begun s c t m).closePeriod c).chan c).rb, slot := none, vm := warnedVm b.active.s1 vm } ∧
      (vectorWarned s c t m).link =
        (if b.active.s1 ≤ vm.age ∧ vm.marker = false then
          ((begun s c t m).closePeriod c).link.queueEvent
            { code := .stale, chan := some c, seq := s.masterSeqNow, repeats := 1, detail := vm.age }
        else ((begun s c t m).closePeriod c).link) ∧
      Carried s c t m (vectorWarned s c t m) := by
  intro b vm
  obtain ⟨hchan, hcarried⟩ := chan_closed (hc.trans hs.symm)
  have hslot' : ∀ d a, (((begun s c t m).closePeriod c).chan c).slot ≠ some (.step d a) := by
    rw [hchan]
    exact hslot
  have hstep := State.chan_modCh_same ((begun s c t m).closePeriod c) c Channel.vectorStep
  have hstepped : Carried s c t m (((begun s c t m).closePeriod c).modCh c Channel.vectorStep) :=
    hcarried.modCh (vectorStep_eq hslot') rfl rfl
  rw [vectorStep_eq hslot', hchan] at hstep
  have hvector : ((((begun s c t m).closePeriod c).modCh c Channel.vectorStep).chan c).state = .vector := by
    rw [hstep]
    exact hs
  refine ⟨?_, ?_, hstepped.warned⟩
  · rw [vectorWarned, chan_staleWarn hvector, hstep]
    rfl
  · rw [vectorWarned, staleWarn_link hvector, hstep, hstepped.masterSeqNow]
    rfl

theorem periodWork_vector (hs : (s.chan c).state = .vector) (hc : (((begun s c t m).closePeriod c).chan c).state = .vector) :
    s.periodWork c t m =
      if (((vectorWarned s c t m).staleTripStep c).chan c).state = .vector then
        (((vectorWarned s c t m).staleTripStep c).planCurrent c t).computePlan c m
      else (vectorWarned s c t m).staleTripStep c := by
  rw [periodWork_eq, hs]
  exact if_pos hc

theorem planFor_vector {v : State} (hs : (v.chan c).state = .vector) (q : Seq) :
    v.planFor c q = some (makeVectorPlan (v.chan c).active v.tb.h (v.chan c).vm q) := by
  simp only [State.planFor, hs]

end

/-! ### ALIGN, RAMP and CLOSED (R78, R79, R83) -/

theorem begunChannel_sq (k : Channel) (t : Time) (m : Seq) (h : Nat) :
    (begunChannel k t m h).sq = { k.sq with advance := (begunChannel k t m h).sq.advance } := by
  unfold begunChannel
  simp only
  split
  · split <;> rfl
  · rfl

/-- The slot of a CLOSED channel after its setpoint. -/
def setpointSlot (x : Option Setpoint) : Option Setpoint := match x with | some (.step _ _) => none | x => x

/-- The sequencer of a CLOSED channel after its setpoint. -/
def setpointSq (x : Option Setpoint) (q : StepSeq) : StepSeq :=
  match x with
  | some (.step d a) => { q with duty := d, advance := match a with | some n => n | none => q.advance }
  | _ => q

theorem stepSetpoint_eq (k : Channel) :
    k.stepSetpoint = { k with slot := setpointSlot k.slot, sq := setpointSq k.slot k.sq } := by
  unfold Channel.stepSetpoint
  cases hs : k.slot with
  | none =>
    simp only [setpointSlot, setpointSq]
    rw [← hs]
  | some x =>
    cases x with
    | vector a w θ =>
      simp only [setpointSlot, setpointSq]
      rw [← hs]
    | step d a => cases a <;> rfl

theorem index_setpointSq (x : Option Setpoint) (q : StepSeq) : (setpointSq x q).index = q.index := by
  unfold setpointSq
  split <;> rfl

/-- The plan that becomes current is the first of a step run. -/
def First (k : Channel) : Prop := k.curPlan = none ∧ ∃ n x, k.nextPlan = some n ∧ n.body = .step x

theorem turnedSq_of_first {k : Channel} (h : First k) (g : Segment) (blanking : Nat) (t : Time) (q : StepSeq) :
    turnedSq k g blanking t q = runBegun g blanking t q := by
  obtain ⟨hcur, n, x, hn, hb⟩ := h
  have hruns : runStarts k n = true := by
    rw [runStarts, hcur, (stepC_withIndex n _).2 ⟨x, hb⟩]
    rfl
  unfold turnedSq
  simp only [hn, hruns, if_true]

theorem turnedSq_of_not_first {k : Channel} (h : ¬First k) (g : Segment) (blanking : Nat) (t : Time) (q : StepSeq) :
    turnedSq k g blanking t q = q := by
  unfold turnedSq
  cases hn : k.nextPlan with
  | none => rfl
  | some n =>
    refine if_neg fun hruns => h ?_
    obtain ⟨hcur, hstep⟩ := Bool.and_eq_true_iff.1 hruns
    obtain ⟨x, hx⟩ := (stepC_withIndex n _).1 hstep
    exact ⟨Option.isNone_iff_eq_none.1 hcur, n, x, hn, hx⟩

section

variable {s : State} {c : Chan} {t : Time} {m : Seq}

theorem periodWork_forced (hs : (s.chan c).state = .align ∨ (s.chan c).state = .ramp)
    (hc : (((begun s c t m).closePeriod c).chan c).state = (s.chan c).state) :
    s.periodWork c t m = (((begun s c t m).closePeriod c).planCurrent c t).computePlan c m := by
  have hrun : (((begun s c t m).closePeriod c).chan c).state.running = true := by rw [hc]; rcases hs with h | h <;> rw [h] <;> rfl
  have hne : ¬(((begun s c t m).closePeriod c).chan c).state = .closed := by rw [hc]; rcases hs with h | h <;> rw [h] <;> decide
  have hwork : s.periodWork c t m = (begun s c t m).stepPeriod c t m := by
    rw [periodWork_eq]
    rcases hs with h | h <;> rw [h]
  rw [hwork, State.stepPeriod, if_pos hrun, if_neg hne]

theorem periodWork_closed (hs : (s.chan c).state = .closed) (hc : (((begun s c t m).closePeriod c).chan c).state = .closed) :
    s.periodWork c t m =
      ((((begun s c t m).closePeriod c).modCh c Channel.stepSetpoint).planCurrent c t).computePlan c m := by
  have hrun : (((begun s c t m).closePeriod c).chan c).state.running = true := by rw [hc]; rfl
  rw [periodWork_eq, hs]
  simp only
  rw [State.stepPeriod, if_pos hrun, if_pos hc]

theorem planFor_forced {v : State} {g : Segment} (hs : (v.chan c).state = .align ∨ (v.chan c).state = .ramp)
    (hg : v.segment c = g) (q : Seq) :
    v.planFor c q =
      some (makeStepPlan (v.chan c).active v.tb.h v.tb.d (v.chan c).sq.index g.duty (decide ((v.chan c).state = .ramp)) q) := by
  rcases hs with h | h <;> simp [State.planFor, h, hg]

theorem planFor_closed {v : State} (hs : (v.chan c).state = .closed) (q : Seq) :
    v.planFor c q =
      some (makeStepPlan (v.chan c).active v.tb.h v.tb.d (v.chan c).sq.index (v.chan c).sq.duty true q) := by
  simp only [State.planFor, hs]

end

/-! ### CALIBRATING (R37, R39) -/

section

variable {s : State} {c : Chan} {t : Time} {m : Seq}

/-- The block with the calibration's period counted. -/
def calCounted (s : State) (c : Chan) (t : Time) (m : Seq) : State :=
  (begun s c t m).modCh c fun k => { k with calPeriods := min 256 ((s.chan c).calPeriods + 1) }

theorem chan_calCounted (s : State) (c : Chan) (t : Time) (m : Seq) :
    (calCounted s c t m).chan c =
      { begunChannel (s.chan c) t m s.tb.h with calPeriods := min 256 ((s.chan c).calPeriods + 1) } := by
  rw [calCounted, State.chan_modCh_same, chan_begun]

theorem carried_calCounted (s : State) (c : Chan) (t : Time) (m : Seq) : Carried s c t m (calCounted s c t m) :=
  (carried_begun s c t m).modCh rfl rfl rfl

theorem periodWork_calibrating (hs : (s.chan c).state = .calibrating) :
    s.periodWork c t m =
      if (((calCounted s c t m).calTimeoutStep c).chan c).state = .calibrating then
        (((calCounted s c t m).calTimeoutStep c).planCurrent c t).computePlan c m
      else (calCounted s c t m).calTimeoutStep c := by
  have hcounted : ((begun s c t m).modCh c fun k => { k with calPeriods := min 256 (k.calPeriods + 1) }) = calCounted s c t m := by
    refine modCh_congr ?_
    rw [chan_begun]
    rfl
  rw [periodWork_eq, hs]
  simp only
  rw [State.calPeriod, hcounted]

theorem calTimeoutStep_unmet {v : State} (h : ¬(256 ≤ (v.chan c).calPeriods ∧ (v.chan c).calResults < 64)) : v.calTimeoutStep c = v :=
  if_neg fun hv => h hv.2

theorem planFor_calibrating {v : State} (hs : (v.chan c).state = .calibrating) (q : Seq) :
    v.planFor c q = some (makeCalPlan (v.chan c).active v.tb.h q) := by
  simp only [State.planFor, hs]

end

/-! ### The outcomes, state by state -/

section

variable {s : State} {c : Chan} {t : Time} {m : Seq}

theorem enterTripped_chan_fields (v : State) (c : Chan) (k : TripCause) :
    ((v.enterTripped c k).chan c).state = .tripped ∧ ((v.enterTripped c k).chan c).slot = (v.chan c).slot ∧
      ((v.enterTripped c k).chan c).trip = some { first := k, seq := v.masterSeqNow, further := 0 } ∧
      ((v.enterTripped c k).chan c).rb = { (v.chan c).rb with work := none } := by
  rw [State.chan_enterTripped_same, State.chan_endRun_same]
  exact ⟨rfl, rfl, rfl, rfl⟩

/-- R56: a stale setpoint ends the work with a trip. -/
theorem vector_trips (hs : (s.chan c).state = .vector) (hc : (((begun s c t m).closePeriod c).chan c).state = .vector)
    (hslot : ∀ d a, (s.chan c).slot ≠ some (.step d a))
    (hage : (begunChannel (s.chan c) t m s.tb.h).active.s2 ≤ (steppedVm (s.chan c)).age) :
    let u := (vectorWarned s c t m).enterTripped c .stale
    s.periodWork c t m = u ∧ (u.chan c).state = .tripped ∧ (u.chan c).slot = none ∧
      (u.chan c).trip = some { first := .stale, seq := s.masterSeqNow, further := 0 } ∧
      (u.chan c).rb = { (((begun s c t m).closePeriod c).chan c).rb with work := none } ∧
      u.link =
        (vectorWarned s c t m).link.queueEvent
          { code := .trip, chan := some c, seq := s.masterSeqNow, repeats := 1, detail := TripCause.stale.code } := by
  intro u
  obtain ⟨hchan, -, hcarried⟩ := vectorWarned_spec hs hc hslot
  have htrips : (vectorWarned s c t m).staleTripStep c = u := staleTripStep_trips (by rw [hchan]; exact hs) (by rw [hchan]; exact hage)
  obtain ⟨hstate, hslot', htrip, hrb⟩ := enterTripped_chan_fields (vectorWarned s c t m) c .stale
  refine ⟨?_, hstate, hslot'.trans ?_, htrip.trans ?_, hrb.trans ?_, ?_⟩
  · rw [periodWork_vector hs hc, htrips]
    exact if_neg (by rw [hstate]; decide)
  · rw [hchan]
  · rw [hcarried.masterSeqNow]
  · rw [hchan]
  · rw [← hcarried.masterSeqNow]
    exact enterTripped_link _ _ _

/-- R43: a setpoint that is fresh enough lets the plans follow. -/
theorem vector_goes (hs : (s.chan c).state = .vector) (hc : (((begun s c t m).closePeriod c).chan c).state = .vector)
    (hslot : ∀ d a, (s.chan c).slot ≠ some (.step d a))
    (hage : (steppedVm (s.chan c)).age < (begunChannel (s.chan c) t m s.tb.h).active.s2) :
    let b := begunChannel (s.chan c) t m s.tb.h
    let u := ((vectorWarned s c t m).planCurrent c t).computePlan c m
    s.periodWork c t m = u ∧ Goes s c t m (((begun s c t m).closePeriod c).chan c).rb (vectorWarned s c t m).link u ∧
      (u.chan c).slot = none ∧ (u.chan c).vm = warnedVm b.active.s1 (steppedVm (s.chan c)) ∧
      (u.chan c).nextPlan = some (makeVectorPlan b.active s.tb.h (steppedVm (s.chan c)) (m + 1)) := by
  intro b u
  obtain ⟨hchan, -, hcarried⟩ := vectorWarned_spec hs hc hslot
  have hbelow : (vectorWarned s c t m).staleTripStep c = vectorWarned s c t m := staleTripStep_below (by rw [hchan]; exact hage)
  have hvector : ((vectorWarned s c t m).chan c).state = .vector := by rw [hchan]; exact hs
  obtain ⟨hgoes, r, hu⟩ := hcarried.turn
  rw [show ((vectorWarned s c t m).chan c).rb = (((begun s c t m).closePeriod c).chan c).rb by rw [hchan]] at hgoes
  refine ⟨?_, hgoes, ?_, ?_, ?_⟩
  · rw [periodWork_vector hs hc, hbelow]
    exact if_pos hvector
  · show (u.chan c).slot = _
    rw [hu, turned_fields, hchan]
  · show (u.chan c).vm = _
    rw [hu, turned_fields, hchan]
  · show (u.chan c).nextPlan = _
    rw [hu]
    show (vectorWarned s c t m).planFor c (m + 1) = _
    rw [planFor_vector hvector, hchan, hcarried.tb]
    rfl

/-- R79 in ALIGN and RAMP. -/
theorem forced_goes {g : Segment} (hs : (s.chan c).state = .align ∨ (s.chan c).state = .ramp)
    (hc : (((begun s c t m).closePeriod c).chan c).state = (s.chan c).state)
    (hg : (s.chan c).sq.profile[(s.chan c).sq.seg]? = some (some g)) :
    let k := s.chan c
    let b := begunChannel k t m s.tb.h
    let closed := (begun s c t m).closePeriod c
    let u := (closed.planCurrent c t).computePlan c m
    s.periodWork c t m = u ∧ Goes s c t m (closed.chan c).rb closed.link u ∧ (u.chan c).slot = k.slot ∧
      (u.chan c).nextPlan = some (makeStepPlan b.active s.tb.h s.tb.d k.sq.index g.duty (decide (k.state = .ramp)) (m + 1)) ∧
      (u.chan c).sq = turnedSq k g b.active.blanking t b.sq := by
  intro k b closed u
  obtain ⟨hchan, hcarried⟩ := chan_closed hc
  obtain ⟨hgoes, r, hu⟩ := hcarried.turn
  have hsq : (closed.chan c).sq = b.sq := (congrArg Channel.sq hchan :)
  have hsegment : closed.segment c = g := by
    refine segment_of_place ?_
    rw [hsq, begunChannel_sq]
    exact hg
  refine ⟨periodWork_forced hs hc, hgoes, ?_, ?_, ?_⟩
  · show (u.chan c).slot = _
    rw [hu, turned_fields, hchan]
    rfl
  · show (u.chan c).nextPlan = _
    rw [hu]
    show closed.planFor c (m + 1) = _
    rw [planFor_forced (hc.symm ▸ hs) hsegment, hcarried.index, hcarried.tb, hc, show (closed.chan c).active = b.active by rw [hchan]]
  · show (u.chan c).sq = _
    rw [hu]
    refine (hcarried.sq_turned r).trans ?_
    rw [hsegment, hsq]

/-- R78, R79 in CLOSED, where a plan is current. -/
theorem closed_goes (hs : (s.chan c).state = .closed) (hc : (((begun s c t m).closePeriod c).chan c).state = .closed)
    (hcur : (s.chan c).curPlan ≠ none) :
    let k := s.chan c
    let b := begunChannel k t m s.tb.h
    let closed := (begun s c t m).closePeriod c
    let q := setpointSq k.slot b.sq
    let u := ((closed.modCh c Channel.stepSetpoint).planCurrent c t).computePlan c m
    s.periodWork c t m = u ∧ Goes s c t m (closed.chan c).rb closed.link u ∧ (u.chan c).sq = q ∧
      (u.chan c).slot = setpointSlot k.slot ∧
      (u.chan c).nextPlan = some (makeStepPlan b.active s.tb.h s.tb.d q.index q.duty true (m + 1)) := by
  intro k b closed q u
  obtain ⟨hchan, hcarried⟩ := chan_closed (hc.trans hs.symm)
  have hset : (closed.modCh c Channel.stepSetpoint).chan c =
      { b with rb := (closed.chan c).rb, slot := setpointSlot k.slot, sq := q } := by
    rw [State.chan_modCh_same, stepSetpoint_eq, hchan]
    rfl
  have hcarried' : Carried s c t m (closed.modCh c Channel.stepSetpoint) :=
    hcarried.modCh (stepSetpoint_eq _) rfl (index_setpointSq _ _)
  obtain ⟨hgoes, r, hu⟩ := hcarried'.turn
  have hclosed : ((closed.modCh c Channel.stepSetpoint).chan c).state = .closed := by rw [hset]; exact hs
  rw [show ((closed.modCh c Channel.stepSetpoint).chan c).rb = (closed.chan c).rb by rw [hset]] at hgoes
  refine ⟨periodWork_closed hs hc, hgoes, ?_, ?_, ?_⟩
  · show (u.chan c).sq = _
    rw [hu]
    refine (hcarried'.sq_turned r).trans ?_
    rw [turnedSq_of_not_first fun h => hcur h.1, hset]
  · show (u.chan c).slot = _
    rw [hu, turned_fields, hset]
  · show (u.chan c).nextPlan = _
    rw [hu]
    show (closed.modCh c Channel.stepSetpoint).planFor c (m + 1) = _
    rw [planFor_closed hclosed, hset, hcarried'.tb]

/-- R39: the calibration's time has run out. -/
theorem calibrating_ends (hs : (s.chan c).state = .calibrating) (hn : min 256 ((s.chan c).calPeriods + 1) = 256)
    (hr : (s.chan c).calResults < 64) :
    s.periodWork c t m = (calCounted s c t m).calFailed c .timeout ∧
      (calCounted s c t m).endsCalibration ((calCounted s c t m).calFailed c .timeout) c (s.chan c).z .calFailed 1 := by
  have hchan := chan_calCounted s c t m
  have hfailed : (calCounted s c t m).calTimeoutStep c = (calCounted s c t m).calFailed c .timeout :=
    calTimeoutStep_met (by rw [hchan]; exact hs) (by rw [hchan]; exact hn.ge) (by rw [hchan]; exact hr)
  have hends := (calCounted s c t m).calFailed_endsCalibration c .timeout
  rw [show ((calCounted s c t m).chan c).z = (s.chan c).z by rw [hchan]; rfl] at hends
  refine ⟨?_, hends⟩
  rw [periodWork_calibrating hs, hfailed]
  have hstopped : (((calCounted s c t m).calFailed c .timeout).chan c).state = .stopped := (congrArg Channel.state hends.1 :)
  exact if_neg (by rw [hstopped]; decide)

/-- R37: the calibration goes on. -/
theorem calibrating_goes (hs : (s.chan c).state = .calibrating)
    (hn : min 256 ((s.chan c).calPeriods + 1) < 256 ∨ 64 ≤ (s.chan c).calResults) :
    let k := s.chan c
    let u := ((calCounted s c t m).planCurrent c t).computePlan c m
    s.periodWork c t m = u ∧ Goes s c t m k.rb s.link u ∧ (u.chan c).calPeriods = min 256 (k.calPeriods + 1) ∧
      (u.chan c).calSum = k.calSum ∧ (u.chan c).calResults = k.calResults ∧ (u.chan c).slot = k.slot ∧
      (u.chan c).nextPlan = some (makeCalPlan (begunChannel k t m s.tb.h).active s.tb.h (m + 1)) := by
  intro k u
  have hchan := chan_calCounted s c t m
  have hcarried := carried_calCounted s c t m
  have hunmet : (calCounted s c t m).calTimeoutStep c = calCounted s c t m := by
    refine calTimeoutStep_unmet ?_
    rw [hchan]
    rintro ⟨hp, hr⟩
    exact hn.elim (Nat.not_lt.2 hp) (Nat.not_le.2 hr)
  have hcal : ((calCounted s c t m).chan c).state = .calibrating := by rw [hchan]; exact hs
  obtain ⟨hgoes, r, hu⟩ := hcarried.turn
  rw [show ((calCounted s c t m).chan c).rb = k.rb by rw [hchan]; rfl] at hgoes
  refine ⟨?_, hgoes, ?_, ?_, ?_, ?_, ?_⟩
  · rw [periodWork_calibrating hs, hunmet]
    exact if_pos hcal
  · show (u.chan c).calPeriods = _
    rw [hu, turned_fields, hchan]
  · show (u.chan c).calSum = _
    rw [hu, turned_fields, hchan]
    rfl
  · show (u.chan c).calResults = _
    rw [hu, turned_fields, hchan]
    rfl
  · show (u.chan c).slot = _
    rw [hu, turned_fields, hchan]
    rfl
  · show (u.chan c).nextPlan = _
    rw [hu]
    show (calCounted s c t m).planFor c (m + 1) = _
    rw [planFor_calibrating hcal, hchan, hcarried.tb]

end

/-- Settles O47: the state's case of `periodWork_eq`, and in the plan-computing states whether the close or the setpoint's age trips. -/
theorem channelPeriodStartDoesTheWorkOfTheState : Obligations.ChannelPeriodStartDoesTheWorkOfTheState := by
  intro c s t m hr hn hl
  have hrun := exec_channelPeriodStart hr hn hl
  have hout : ∀ {u : State}, s.periodWork c t m = u → exec (.channelPeriodStart c) s = .next u.settle := by
    rintro u rfl
    exact hrun
  intro k b begun' closed run record goesOn
  refine ⟨fun hs => hout ?_, fun hs hne => hout (periodWork_tripped hs hne), fun hs hc hslot => ?_, fun hs hc g hg => ?_,
    fun hs hc hcur => ?_, fun hs => ⟨fun hperiods hresults => ?_, fun hgo => ?_⟩⟩
  · rw [periodWork_eq]
    rcases hs with h | h | h <;> rw [h] <;> rfl
  · have hlink := (vectorWarned_spec hs hc hslot).2.1
    refine ⟨fun hage => ?_, fun hage => ?_⟩
    · obtain ⟨hwork, hstate, hempty, htrip, hrb, hsent⟩ := vector_trips hs hc hslot hage
      rw [hlink] at hsent
      exact ⟨_, hout hwork, hstate, hempty, htrip, hrb, hsent⟩
    · obtain ⟨hwork, hgoes, hempty, hvm, hnext⟩ := vector_goes hs hc hslot hage
      rw [hlink] at hgoes
      exact ⟨_, ⟨hout hwork, hgoes⟩, hempty, hvm, hnext⟩
  · obtain ⟨hwork, hgoes, hslot, hnext, hsq⟩ := forced_goes hs hc hg
    refine ⟨_, ⟨hout hwork, hgoes⟩, hslot, hnext, fun h => ?_, fun h hk => ?_, fun h hk => ?_⟩
    · exact hsq.trans (turnedSq_of_not_first h _ _ _ _)
    · refine (hsq.trans (turnedSq_of_first h _ _ _ _)).trans ?_
      simp only [runBegun, beginsWith, hk]
      rfl
    · refine (hsq.trans (turnedSq_of_first h _ _ _ _)).trans ?_
      simp only [runBegun, beginsWith, hk]
      rfl
  · obtain ⟨hwork, hgoes, hsq, hslot, hnext⟩ := closed_goes hs hc hcur
    exact ⟨_, ⟨hout hwork, hgoes⟩, hsq, hslot, hnext⟩
  · obtain ⟨hwork, hends⟩ := calibrating_ends hs hperiods hresults
    exact ⟨_, hends, hout hwork⟩
  · obtain ⟨hwork, hgoes, hperiods, hsum, hresults, hslot, hnext⟩ := calibrating_goes hs hgo
    exact ⟨_, ⟨hout hwork, hgoes⟩, hperiods, hsum, hresults, hslot, hnext⟩

end Sys2Proof.PeriodStart

/-!
PROOFS. Who writes the settings: the carrier, the class levels, the aux plan, the limits, supervision and the two records of each channel,
followed from the operations on the state up to the commands.
-/

namespace Sys2Proof.SettingsFrame

open Sys2Proof Sys2Proof.Machine Sys2Proof.Motor Sys2Proof.SafeStates

/-- The settings of the block. -/
structure View where
  h : Nat
  d : Nat
  shunt : Nat
  sense : Nat
  auxLevel : Nat
  aux : List AuxEntry
  busOver : Nat
  busUnder : Nat
  tempWarn : Nat
  tempTrip : Nat
  sup : Supervision
  staged : Chan → ConfigRecord
  active : Chan → ConfigRecord

def view (s : State) : View where
  h := s.tb.h
  d := s.tb.d
  shunt := s.sched.shuntLevel
  sense := s.sched.senseLevel
  auxLevel := s.sched.auxLevel
  aux := s.sched.aux
  busOver := s.prot.busOver
  busUnder := s.prot.busUnder
  tempWarn := s.prot.tempWarn
  tempTrip := s.prot.tempTrip
  sup := s.sup
  staged c := (s.chan c).staged
  active c := (s.chan c).active

/-! ### The primitive updates -/

/-- Where every channel keeps its two records, the rest of the block decides. -/
theorem view_of_records {s t : State} (hr : ∀ x, (t.chan x).staged = (s.chan x).staged ∧ (t.chan x).active = (s.chan x).active) :
    view t = view { t with ch := s.ch } := by
  have staged : (view t).staged = (view s).staged := funext fun x => (hr x).1
  have active : (view t).active = (view s).active := funext fun x => (hr x).2
  calc view t = { view { t with ch := s.ch } with staged := (view t).staged, active := (view t).active } := rfl
    _ = view { t with ch := s.ch } := by rw [staged, active]; rfl

/-- An update of a channel that leaves its records. -/
theorem view_modCh {s : State} {c : Chan} {f : Channel → Channel} (hs : (f (s.chan c)).staged = (s.chan c).staged)
    (ha : (f (s.chan c)).active = (s.chan c).active) : view (s.modCh c f) = view s := by
  refine (view_of_records fun x => ?_).trans rfl
  by_cases hx : x = c
  · rw [hx, State.chan_modCh_same]
    exact ⟨hs, ha⟩
  · rw [State.chan_modCh_other _ _ hx]
    exact ⟨rfl, rfl⟩

@[simp] theorem view_modSq (s : State) (c : Chan) (f : StepSeq → StepSeq) : view (s.modSq c f) = view s := view_modCh rfl rfl

@[simp] theorem view_modRb (s : State) (c : Chan) (f : Rebuilder → Rebuilder) : view (s.modRb c f) = view s := view_modCh rfl rfl

@[simp] theorem view_modGates (s : State) (c : Chan) (f : Gates → Gates) : view (s.modGates c f) = view s := view_modCh rfl rfl

@[simp] theorem view_modLink (s : State) (f : Link → Link) : view (s.modLink f) = view s := rfl

@[simp] theorem view_queueEvent (s : State) (code : EventCode) (c : Option Chan) (n : Nat) :
    view (s.queueEvent code c n) = view s := rfl

theorem view_queued {s t : State} (h : view t = view s) (code : EventCode) (c : Option Chan) (n : Nat) :
    view (t.queueEvent code c n) = view s := h

@[simp] theorem view_setCompare (s : State) (c : Chan) (due : Time) (kind : CompareKind) :
    view (s.setCompare c due kind) = view s := view_modSq s c _

theorem view_ite {p : Prop} [Decidable p] {s a b : State} (ha : view a = view s) (hb : view b = view s) :
    view (if p then a else b) = view s := by
  split_ifs
  · exact ha
  · exact hb

theorem view_foldl {α : Type} {f : State → α → State} (hf : ∀ u a, view (f u a) = view u) (l : List α) (s : State) :
    view (l.foldl f s) = view s := by
  induction l generalizing s with
  | nil => rfl
  | cons a l ih => exact (ih (f s a)).trans (hf s a)

/-! ### The passage of time -/

@[simp] theorem view_settle (s : State) : view s.settle = view s := by
  unfold State.settle
  exact view_ite (s := s) rfl rfl

@[simp] theorem view_pass (s : State) (n : Nat) : view (s.pass n) = view s := by
  refine (view_of_records (s := s) fun x => ?_).trans ?_
  · cases hr : s.clockRuns <;> cases x <;> simp only [State.pass, State.chan, hr] <;> exact ⟨rfl, rfl⟩
  · unfold State.pass Timebase.elapse
    dsimp only
    split_ifs <;> rfl

@[simp] theorem view_elapse (s : State) (n : Nat) : view (s.elapse n) = view s := by
  unfold State.elapse
  refine view_ite rfl ((view_pass _ n).trans ?_)
  unfold State.instantOver
  exact view_ite (s := s) rfl rfl

@[simp] theorem view_waitUntil (s : State) (t : Time) : view (s.waitUntil t) = view s := view_ite (view_elapse s _) rfl

/-! ### Leaving the plan-computing states and the trip causes -/

@[simp] theorem view_endRun (s : State) (c : Chan) : view (s.endRun c) = view s :=
  (view_modCh rfl rfl).trans ((view_modCh rfl rfl).trans rfl)

@[simp] theorem view_toStopped (s : State) (c : Chan) : view (s.toStopped c) = view s :=
  (view_modCh rfl rfl).trans ((view_modGates _ c _).trans (view_endRun s c))

@[simp] theorem view_toBraking (s : State) (c : Chan) : view (s.toBraking c) = view s :=
  (view_modCh rfl rfl).trans ((view_modGates _ c _).trans (view_endRun s c))

@[simp] theorem view_calFailed (s : State) (c : Chan) (f : CalFailure) : view (s.calFailed c f) = view s := view_toStopped s c

@[simp] theorem view_enterTripped (s : State) (c : Chan) (k : TripCause) : view (s.enterTripped c k) = view s :=
  view_queued ((view_modCh rfl rfl).trans ((view_modGates _ c _).trans (view_endRun s c))) _ _ _

@[simp] theorem view_reachCause (s : State) (c : Chan) (k : TripCause) : view (s.reachCause c k) = view s := by
  rcases s.reachCause_cases c k with ⟨_, h⟩ | ⟨_, h⟩ | ⟨_, _, h⟩ | ⟨_, _, _, h⟩ <;> rw [h]
  · exact view_enterTripped s c k
  · exact view_queued (view_modCh rfl rfl) _ _ _
  · exact view_calFailed s c .aborted
  · rfl

@[simp] theorem view_sendCause (s : State) (k : TripCause) (who : ChanState → Bool) : view (s.sendCause k who) = view s :=
  view_foldl (fun u c => view_ite (view_reachCause u c k) rfl) _ s

@[simp] theorem view_faultAsserted (s : State) (c : Chan) : view (s.faultAsserted c) = view s :=
  (view_reachCause _ c _).trans ((view_modCh rfl rfl).trans (view_modGates s c _))

@[simp] theorem view_sampleFaults (s : State) : view s.sampleFaults = view s :=
  (view_foldl (fun u c => view_ite (view_faultAsserted u c) rfl) _ _).trans rfl

/-! ### The close of a period (R130 to R133) -/

@[simp] theorem view_emitReport (s : State) (c : Chan) (w : WorkRecord) : view (s.emitReport c w) = view s := view_modRb _ c _

@[simp] theorem view_limitStep (s : State) (c : Chan) (n : Nat) : view (s.limitStep c n) = view s :=
  view_ite (view_reachCause s c _) rfl

@[simp] theorem view_closePeriod (s : State) (c : Chan) : view (s.closePeriod c) = view s := by
  have reported : ∀ (u : State) w, view (u.reportStep c w) = view u := fun u w =>
    view_ite (view_modRb u c _) (view_ite (view_emitReport u c w) (view_modRb u c _))
  unfold State.closePeriod
  split
  · rfl
  · exact (view_limitStep _ c _).trans ((reported _ _).trans (view_modRb s c _))

/-! ### The step sequencer (R83 to R97) -/

@[simp] theorem view_runBegins (s : State) (c : Chan) (t : Time) : view (s.runBegins c t) = view s := by
  rw [PeriodStart.runBegins_eq]
  exact view_modCh rfl rfl

@[simp] theorem view_commutate (s : State) (c : Chan) (t : Time) (peak : Bool) : view (s.commutate c t peak) = view s :=
  (view_modCh rfl rfl).trans rfl

@[simp] theorem view_enterSegment (s : State) (c : Chan) (i : Nat) (t : Time) : view (s.enterSegment c i t) = view s := by
  rw [HalfPeriod.enterSegment_eq rfl]
  exact view_modCh rfl rfl

@[simp] theorem view_advanceRun (s : State) (c : Chan) (t : Time) (peak : Bool) : view (s.advanceRun c t peak) = view s := by
  simp only [State.advanceRun, State.startFailed]
  split_ifs <;> simp

@[simp] theorem view_lostSyncStep (s : State) (c : Chan) : view (s.lostSyncStep c) = view s := view_ite (view_reachCause s c _) rfl

@[simp] theorem view_closedCommutation (s : State) (c : Chan) (t : Time) (peak : Bool) (kind : CompareKind) :
    view (s.closedCommutation c t peak kind) = view s := by
  simp only [State.closedCommutation]
  split_ifs <;> simp

@[simp] theorem view_applyCompare (s : State) (c : Chan) (t : Time) (peak : Bool) : view (s.applyCompare c t peak) = view s := by
  simp only [State.applyCompare]
  split
  · rfl
  · split_ifs
    · split <;> simp
    · rfl

@[simp] theorem view_rampCrossing (s : State) (c : Chan) (tzc : Time) (early : Bool) : view (s.rampCrossing c tzc early) = view s := by
  rcases SixStep.rampCrossing_cases s c tzc early with ⟨n, h⟩ | ⟨p, t60, h⟩ <;> rw [h]
  · exact view_modSq s c _
  · exact view_queued (view_modCh rfl rfl) _ _ _

@[simp] theorem view_closedCrossing (s : State) (c : Chan) (tzc : Time) : view (s.closedCrossing c tzc) = view s := by
  rw [SixStep.closedCrossing_eq]
  exact view_modSq s c _

@[simp] theorem view_senseResult (s : State) (c : Chan) (seq : Seq) (raw : Nat) (start : Time) (input floatInput : Nat) :
    view (s.senseResult c seq raw start input floatInput) = view s := by
  have classified : ∀ d, view (s.classify c start d) = view s := by
    intro d
    simp only [State.classify]
    split_ifs <;> simp
  simp only [State.senseResult]
  refine view_ite ?_ rfl
  split
  · rfl
  · exact view_ite (view_modSq s c _) (classified _)

/-! ### The monitor (R144 to R147) -/

@[simp] theorem view_auxResult (s : State) (a : AuxSource) (raw merged : Nat) : view (s.auxResult a raw merged) = view s := by
  have bus : ∀ u : State, view (u.examineBus raw) = view u := by
    intro u
    simp only [State.examineBus]
    split
    · rfl
    · exact (view_sendCause _ _ _).trans rfl
    · exact (view_sendCause _ _ _).trans rfl
  have temp : ∀ u : State, view (u.examineTemp raw) = view u := by
    intro u
    simp only [State.examineTemp]
    exact view_ite ((view_sendCause _ _ _).trans (view_ite rfl rfl)) (view_ite rfl rfl)
  cases a with
  | bus => exact (bus _).trans rfl
  | temp => exact (temp _).trans rfl
  | spare1 | spare2 => rfl

@[simp] theorem view_busStaleStep (s : State) : view s.busStaleStep = view s := view_ite rfl rfl

/-! ### The converter (R108 to R113) -/

@[simp] theorem view_calDoneStep (s : State) (c : Chan) : view (s.calDoneStep c) = view s :=
  view_ite (view_ite (view_queued ((view_modCh rfl rfl).trans (view_toStopped s c)) _ _ _) (view_calFailed s c _)) rfl

@[simp] theorem view_completeConversion (s : State) (v : Conversion) (raw : Nat) : view (s.completeConversion v raw) = view s := by
  have result : ∀ (u : State) c, view (u.channelResult c v raw) = view u := by
    intro u c
    simp only [State.channelResult]
    split
    · exact view_ite ((view_calDoneStep _ c).trans (view_modCh rfl rfl)) rfl
    · exact (view_senseResult _ c _ _ _ _ _).trans (view_modRb u c _)
    · exact view_modRb u c _
  simp only [State.completeConversion]
  split
  · exact (result _ _).trans ((view_modCh rfl rfl).trans rfl)
  · exact (view_auxResult _ _ _ _).trans rfl
  · rfl

/-! ### The period of a channel (R23) -/

@[simp] theorem view_planTurn (s : State) (c : Chan) (t : Time) (m : Seq) : view ((s.planCurrent c t).computePlan c m) = view s := by
  obtain ⟨tl, r, hturn, -⟩ := PeriodStart.planTurn_eq s c t m
  have hfields := PeriodStart.turned_fields s c t r
  rw [hturn]
  exact (view_modCh (congrArg Channel.staged hfields :) (congrArg Channel.active hfields :)).trans rfl

theorem view_vectorPeriod (s : State) (c : Chan) (t : Time) (m : Seq) : view (s.vectorPeriod c t m) = view s := by
  have warned : ∀ u : State, view (u.staleWarn c) = view u := fun u =>
    view_ite (view_queued (view_modCh rfl rfl) _ _ _) rfl
  have tested : ∀ u : State, view (u.staleTripStep c) = view u := fun u => view_ite (view_reachCause u c _) rfl
  have set : ∀ u : State, view (u.modCh c Channel.vectorStep) = view u := by
    intro u
    have kept : ((u.chan c).vectorStep).staged = (u.chan c).staged ∧ ((u.chan c).vectorStep).active = (u.chan c).active := by
      unfold Channel.vectorStep
      split <;> exact ⟨rfl, rfl⟩
    exact view_modCh kept.1 kept.2
  have before := (tested _).trans ((warned _).trans ((set _).trans (view_closePeriod s c)))
  exact view_ite (view_ite ((view_planTurn _ c t m).trans before) before) (view_closePeriod s c)

theorem view_stepPeriod (s : State) (c : Chan) (t : Time) (m : Seq) : view (s.stepPeriod c t m) = view s := by
  have set : ∀ u : State, view (u.modCh c Channel.stepSetpoint) = view u := by
    intro u
    refine view_modCh ?_ ?_ <;> rw [PeriodStart.stepSetpoint_eq]
  exact view_ite ((view_planTurn _ c t m).trans (view_ite ((set _).trans (view_closePeriod s c)) (view_closePeriod s c)))
    (view_closePeriod s c)

theorem view_calPeriod (s : State) (c : Chan) (t : Time) (m : Seq) : view (s.calPeriod c t m) = view s := by
  have counted : view ((s.modCh c fun k => { k with calPeriods := min 256 (k.calPeriods + 1) }).calTimeoutStep c) = view s :=
    (view_ite (view_calFailed _ c _) rfl).trans (view_modCh rfl rfl)
  exact view_ite ((view_planTurn _ c t m).trans counted) counted

theorem view_periodWork (s : State) (c : Chan) (t : Time) (m : Seq) :
    view (s.periodWork c t m) = view (PeriodStart.begun s c t m) := by
  rw [PeriodStart.periodWork_eq]
  cases (s.chan c).state with
  | vector => exact view_vectorPeriod _ c t m
  | align | ramp | closed => exact view_stepPeriod _ c t m
  | calibrating => exact view_calPeriod _ c t m
  | unconfigured | stopped | braking | tripped => rfl

/-- A period start writes the active record of its channel alone. -/
theorem view_begun (s : State) (c : Chan) (t : Time) (m : Seq) :
    view (PeriodStart.begun s c t m) = { view s with active := (view (PeriodStart.begun s c t m)).active } ∧
      ∀ x, x ≠ c → ((PeriodStart.begun s c t m).chan x).active = (s.chan x).active := by
  have hb := PeriodStart.carried_begun s c t m
  have staged : ∀ x, ((PeriodStart.begun s c t m).chan x).staged = (s.chan x).staged := by
    intro x
    by_cases hx : x = c
    · rw [hx, PeriodStart.chan_begun]
      rfl
    · rw [hb.others x hx]
  refine ⟨?_, fun x hx => by rw [hb.others x hx]⟩
  simp only [view, staged]
  rfl

/-! ### The link, QUIET and the wake -/

@[simp] theorem view_ready (s : State) : view s.ready = view s := rfl

@[simp] theorem view_enterGap (s : State) : view s.enterGap = view s := view_ite rfl rfl

@[simp] theorem view_receive (s : State) (cs : List Byte) (left : Nat) : view (s.receive cs left) = view s := by
  have item : ∀ (u : State) (x : RxItem), view (u.rxItem x) = view u := by
    intro u x
    cases x with
    | error f => rfl
    | frame f => exact view_ite rfl rfl
  exact view_foldl item (scan 0 cs).1 s

@[simp] theorem view_wakeBegins (s : State) (char : Byte) : view (s.wakeBegins char) = view s := view_ite rfl rfl

@[simp] theorem view_transmitAgain (s : State) : view s.transmitAgain = view s := by
  unfold State.transmitAgain
  split <;> rfl

/-- A carrier restart takes the aux wait counts back to 0 (R119). -/
theorem view_carrierRestart (s : State) :
    view s.carrierRestart = { view s with aux := s.sched.aux.map fun a => { a with wait := 0 } } :=
  (view_of_records fun x => by rw [Settings.chan_carrierRestart]; exact ⟨rfl, rfl⟩).trans rfl

@[simp] theorem view_flushAll (s : State) : view s.flushAll = view s :=
  (view_of_records fun x => by cases x <;> exact ⟨rfl, rfl⟩).trans rfl

theorem view_endStartUp (s : State) :
    view s.endStartUp = { view s with aux := s.sched.aux.map fun a => { a with wait := 0 } } :=
  (view_sampleFaults _).trans ((view_queueEvent _ _ _ _).trans (view_carrierRestart _))

theorem view_restartedSampled (t : State) :
    view t.transmitAgain.carrierRestart.sampleFaults = { view t with aux := t.sched.aux.map fun a => { a with wait := 0 } } := by
  have ht := view_transmitAgain t
  have haux : t.transmitAgain.sched.aux = t.sched.aux := congrArg View.aux ht
  rw [view_sampleFaults, view_carrierRestart, ht, haux]

theorem view_wakeNow (s : State) :
    view s.wakeNow = { view s with aux := s.sched.aux.map fun a => { a with wait := 0 }, sup := s.sup.wake } :=
  view_restartedSampled _

theorem view_enterQuiet (s : State) :
    view s.enterQuiet = { view s with sup := { s.sup with running := false, heartbeat := none } } :=
  (view_of_records fun x => by rw [DeviceLife.chan_enterQuiet]; exact ⟨rfl, rfl⟩).trans rfl

/-! ### Supervision (R154 to R157) -/

theorem view_supervisionTrip (s : State) (k : SupTrip) :
    view (s.supervisionTrip k) = { view s with sup := { s.sup with heartbeat := none, running := false } } := by
  have sent : view ((s.queueEvent .supervisionTrip none k.code).sendCause .supervision (· != .unconfigured)) = view s :=
    view_sendCause _ _ _
  calc view (s.supervisionTrip k)
      = { view ((s.queueEvent .supervisionTrip none k.code).sendCause .supervision (· != .unconfigured)) with
          sup := { ((s.queueEvent .supervisionTrip none k.code).sendCause .supervision (· != .unconfigured)).sup with
            heartbeat := none, running := false } } := rfl
    _ = _ := by rw [sent, show State.sup _ = s.sup from congrArg View.sup sent]

/-! ### What stands in its range (R3, R103, R116, R148, R152) -/

/-- Supervision's values lie in their ranges. -/
def SupInRange (p : Supervision) : Prop :=
  p.tc ≤ 1000 ∧ p.tc < p.te ∧ 10 ≤ p.te ∧ p.te ≤ 2000 ∧ p.count ≤ 2000 ∧ p.stage ≤ 1 ∧
    (∀ n, p.expected = some n → n ≤ 255) ∧ (∀ n, p.heartbeat = some n → n ≤ 255)

/-- An aux entry lies in its ranges under a carrier of half period h. -/
def EntryInRange (h : Nat) (a : AuxEntry) : Prop := a.instant < 2 * h ∧ a.divider ≤ 64 ∧ a.wait ≤ 63

def AuxInRange (h : Nat) (l : List AuxEntry) : Prop := l.length = 4 ∧ ∀ a ∈ l, EntryInRange h a

def InRange (a : View) : Prop :=
  ((1000 ≤ a.h ∧ a.h ≤ 10000 ∧ a.d ≤ 255) ∧ (a.shunt ≤ 2 ∧ a.sense ≤ 2 ∧ a.auxLevel ≤ 2) ∧
    (a.busOver ≤ 4095 ∧ a.busUnder ≤ 4095 ∧ a.tempWarn ≤ 4095 ∧ a.tempTrip ≤ 4095)) ∧
    (1 ≤ a.h ∧ AuxInRange a.h a.aux) ∧ SupInRange a.sup

theorem inRange_view (s : State) :
    InRange (view s) ↔ s.settingsInRange ∧ s.auxPlanInRange ∧ s.supervisionInRange := Iff.rfl

theorem AuxInRange.map {h h' : Nat} {l : List AuxEntry} {f : AuxEntry → AuxEntry} (hl : AuxInRange h l)
    (hf : ∀ a, EntryInRange h a → EntryInRange h' (f a)) : AuxInRange h' (l.map f) := by
  obtain ⟨hlen, hall⟩ := hl
  refine ⟨by rw [List.length_map, hlen], fun b hb => ?_⟩
  obtain ⟨a, ha, rfl⟩ := List.mem_map.1 hb
  exact hf a (hall a ha)

/-- What host supervision does by itself: its settings stay. -/
structure SupMoves (p q : Supervision) : Prop where
  range : SupInRange p → SupInRange q
  enabled : q.enabled = p.enabled
  tc : q.tc = p.tc
  te : q.te = p.te

theorem SupMoves.refl (p : Supervision) : SupMoves p p := ⟨id, rfl, rfl, rfl⟩

theorem SupMoves.trans {p q r : Supervision} (h : SupMoves p q) (h' : SupMoves q r) : SupMoves p r :=
  ⟨h'.range ∘ h.range, h'.enabled.trans h.enabled, h'.tc.trans h.tc, h'.te.trans h.te⟩

/-- A heartbeat is discarded and the window starts or stops. -/
theorem supMoves_window (p : Supervision) (b : Bool) : SupMoves p { p with running := b, heartbeat := none } :=
  ⟨fun ⟨htc, hlt, hlo, hhi, hcount, hstage, hexp, _⟩ => ⟨htc, hlt, hlo, hhi, hcount, hstage, hexp, nofun⟩, rfl, rfl, rfl⟩

/-- The count and the stage are set anew. -/
theorem supMoves_restart (p : Supervision) {n k : Nat} (hn : n ≤ 2000) (hk : k ≤ 1) :
    SupMoves p { p with count := n, stage := k } :=
  ⟨fun ⟨htc, hlt, hlo, hhi, _, _, hexp, hhb⟩ => ⟨htc, hlt, hlo, hhi, hn, hk, hexp, hhb⟩, rfl, rfl, rfl⟩

/-- The expected heartbeat is set anew. -/
theorem supMoves_expected (p : Supervision) (e : Option Nat) (he : ∀ n, e = some n → n ≤ 255) :
    SupMoves p { p with expected := e } :=
  ⟨fun ⟨htc, hlt, hlo, hhi, hcount, hstage, _, hhb⟩ => ⟨htc, hlt, hlo, hhi, hcount, hstage, he, hhb⟩, rfl, rfl, rfl⟩

/-- From a to b the aux wait counts and supervision have moved, and nothing else. -/
structure Shifts (a b : View) : Prop where
  rest : b = { a with aux := b.aux, sup := b.sup }
  aux : AuxInRange a.h a.aux → AuxInRange a.h b.aux
  sup : SupMoves a.sup b.sup

theorem Shifts.of_eq {a b : View} (h : b = a) : Shifts a b := h ▸ ⟨rfl, id, .refl _⟩

theorem Shifts.trans {a b c : View} (h : Shifts a b) (h' : Shifts b c) : Shifts a c := by
  have hh : b.h = a.h := by rw [h.rest]
  refine ⟨?_, fun ha => hh ▸ h'.aux (hh ▸ h.aux ha), h.sup.trans h'.sup⟩
  rw [h'.rest, h.rest]

theorem Shifts.of_sup {a b : View} {p : Supervision} (h : b = { a with sup := p }) (hp : SupMoves a.sup p) : Shifts a b :=
  h ▸ ⟨rfl, id, hp⟩

theorem Shifts.of_aux {a b : View} {l : List AuxEntry} (h : b = { a with aux := l })
    (hl : AuxInRange a.h a.aux → AuxInRange a.h l) : Shifts a b := h ▸ ⟨rfl, hl, .refl _⟩

theorem Shifts.inRange {a b : View} (h : Shifts a b) (ha : InRange a) : InRange b := by
  obtain ⟨hset, ⟨hpos, haux⟩, hsup⟩ := ha
  have hb : InRange { a with aux := b.aux, sup := b.sup } := ⟨hset, ⟨hpos, h.aux haux⟩, h.sup.range hsup⟩
  exact h.rest ▸ hb

theorem auxInRange_restart {h : Nat} {l : List AuxEntry} (hl : AuxInRange h l) :
    AuxInRange h (l.map fun a => { a with wait := 0 }) := hl.map fun _ ha => ⟨ha.1, ha.2.1, Nat.zero_le _⟩

/-! ### What shifts -/

theorem shifts_supervisionTrip (s : State) (k : SupTrip) : Shifts (view s) (view (s.supervisionTrip k)) :=
  .of_sup (view_supervisionTrip s k) (supMoves_window s.sup false)

theorem shifts_modSup {s : State} {f : Supervision → Supervision} (h : SupMoves s.sup (f s.sup)) :
    Shifts (view s) (view (s.modSup f)) := .of_sup rfl h

theorem shifts_expiryStep (s : State) : Shifts (view s) (view s.expiryStep) := by
  unfold State.expiryStep
  split_ifs
  · exact shifts_modSup (s := s.queueEvent _ _ _) (supMoves_restart s.sup (Nat.zero_le _) le_rfl)
  · exact shifts_supervisionTrip s _
  · exact .of_eq rfl

theorem shifts_heartbeatStep (s : State) : Shifts (view s) (view s.heartbeatStep) := by
  have emptied : Shifts (view s) (view (s.modSup fun p => { p with heartbeat := none })) :=
    shifts_modSup (supMoves_window s.sup s.sup.running)
  have taken : ∀ (u : State) (c : Nat),
      Shifts (view u) (view (u.modSup fun p => { p with count := 0, stage := 0, expected := some ((c + 1) % 256) })) := by
    intro u c
    refine shifts_modSup ((supMoves_restart u.sup (Nat.zero_le _) (Nat.zero_le _)).trans (supMoves_expected _ _ fun n hn => ?_))
    cases hn
    omega
  unfold State.heartbeatStep
  split
  · exact .of_eq rfl
  · dsimp only
    split_ifs
    · exact emptied.trans (shifts_supervisionTrip _ _)
    · split
      · split_ifs
        · exact emptied.trans (taken _ _)
        · exact emptied
      · exact emptied.trans (taken _ _)

theorem shifts_slowStep (s : State) : Shifts (view s) (view s.slowStep) := by
  have raised : Shifts (view s) (view (s.modSup fun p => { p with count := min 2000 (p.count + 1) })) :=
    shifts_modSup ⟨fun ⟨htc, hlt, hlo, hhi, _, hrest⟩ => ⟨htc, hlt, hlo, hhi, min_le_left _ _, hrest⟩, rfl, rfl, rfl⟩
  exact (raised.trans (shifts_heartbeatStep _)).trans (shifts_expiryStep _)

theorem shifts_quietEntryNow (s : State) : Shifts (view s) (view s.quietEntryNow) := by
  rcases s.quietEntryNow_cases with ⟨_, _, _, h⟩ | ⟨_, h⟩ <;> rw [h]
  · exact .of_sup (view_enterQuiet _) (supMoves_window s.sup false)
  · exact .of_eq rfl

theorem shifts_endStartUp (s : State) : Shifts (view s) (view s.endStartUp) := .of_aux (view_endStartUp s) auxInRange_restart

theorem supMoves_wake (p : Supervision) : SupMoves p p.wake := by
  unfold Supervision.wake
  split_ifs
  · exact ⟨fun ⟨htc, hlt, hlo, hhi, _, _, _, hhb⟩ => ⟨htc, hlt, hlo, hhi, Nat.zero_le _, Nat.zero_le _, nofun, hhb⟩, rfl, rfl, rfl⟩
  · exact .refl p

theorem shifts_wakeNow (s : State) : Shifts (view s) (view s.wakeNow) := by
  rw [view_wakeNow]
  exact ⟨rfl, auxInRange_restart, supMoves_wake s.sup⟩

theorem insertAll_timeline (t : Time) (m : Seq) (rs : List (Nat × AuxEntry)) :
    ∀ q : Scheduler, ∃ tl, MasterStart.insertAll t m q rs = { q with timeline := tl } := by
  induction rs with
  | nil => exact fun q => ⟨q.timeline, rfl⟩
  | cons r rs ih =>
    intro q
    obtain ⟨tl, h⟩ := ih (q.insertAux r.1 r.2 t m)
    refine ⟨tl, h.trans ?_⟩
    rw [MasterStart.insertAux_frame]

/-- A master period start takes the aux waits on, each entry by itself (R117). -/
theorem view_masterWork (s : State) :
    view s.masterWork =
      { view s with aux := [0, 1, 2, 3].foldl (fun l i => l.modify i MasterStart.turned) s.sched.aux } := by
  obtain ⟨tl, htl⟩ := insertAll_timeline s.tb.masterNext s.tb.masterNextSeq (MasterStart.askedAll s.sched.aux) s.sched
  have hturn := MasterStart.auxPlanTurn_eq s.sched s.tb.masterNext s.tb.masterNextSeq
  rw [htl] at hturn
  have counted : ∀ u : State, view u.staleCountStep = view u := fun u => view_ite ((view_busStaleStep _).trans rfl) rfl
  rw [MasterStart.masterWork_eq, counted, MasterStart.aged, hturn]
  rfl

theorem entryInRange_turned {h : Nat} {a : AuxEntry} (ha : EntryInRange h a) : EntryInRange h (MasterStart.turned a) := by
  obtain ⟨hi, hd, hw⟩ := ha
  unfold MasterStart.turned
  split_ifs
  · exact ⟨hi, hd, hw⟩
  · exact ⟨hi, hd, show a.divider - 1 ≤ 63 by omega⟩
  · exact ⟨hi, hd, show a.wait - 1 ≤ 63 by omega⟩

theorem shifts_masterWork (s : State) : Shifts (view s) (view s.masterWork) := by
  refine .of_aux (view_masterWork s) fun ha => ?_
  have hmap := MasterStart.map_turned (aux := s.sched.aux) ha.1
  exact hmap.symm ▸ ha.map fun _ => entryInRange_turned

/-! ### The link's frames and the resets (ch.10, R13, R14) -/

@[simp] theorem view_linkError (s : State) (f : LinkFailure) : view (s.linkError f) = view s := rfl

@[simp] theorem view_linkInForce (s : State) (r : Rate) (gap : Nat) : view (s.linkInForce r gap) = view s := rfl

@[simp] theorem view_replied (u : State) (type tag : Byte) (a : Answer) : view (u.replied type tag a) = view u :=
  (view_settle _).trans rfl

/-- A reset, whatever it keeps of the link, takes the settings to those of `State.reset`. -/
theorem view_resetBlocks (s : State) (keep : Bool) : view (s.resetBlocks keep) = view State.reset := rfl

theorem inRange_reset : InRange (view State.reset) := by
  obtain ⟨-, -, -, -, -, -, hset, haux, hsup, -⟩ := DeviceLife.resetMeetsEveryInvariant
  exact (inRange_view _).2 ⟨hset, haux, hsup⟩

theorem inRange_frameGone (s : State) (e : ReplyEffect) (hs : InRange (view s)) : InRange (view (s.frameGone e)) := by
  have gapped : ∀ u : State, Shifts (view s) (view u) → InRange (view u.enterGap) := fun u hu => by
    rw [view_enterGap]
    exact hu.inRange hs
  cases e with
  | nothing => exact gapped s (.of_eq rfl)
  | messageReset => exact inRange_reset
  | quietEntry => exact gapped _ (shifts_quietEntryNow s)
  | setLink r gap => exact gapped _ (.of_eq rfl)

/-! ### What a command keeps of the settings -/

/-- What the statements ask of a command from a to b: the ranges, and who writes what. -/
structure Keeps (i : Instr) (a b : View) : Prop where
  range : InRange a → InRange b
  staged : resetRow i = false → ∀ c, b.staged c ≠ a.staged c → ∃ tag p, i = .channelSetup tag p
  active : resetRow i = false → ∀ c, b.active c ≠ a.active c → (∃ tag p, i = .activate tag p) ∨ i = .channelPeriodStart c
  carrier : resetRow i = false → b.h ≠ a.h ∨ b.d ≠ a.d → ∃ tag p, i = .carrier tag p
  supervised : resetRow i = false → a.sup.enabled = true → b.sup.enabled = true ∧ b.sup.tc = a.sup.tc ∧ b.sup.te = a.sup.te

theorem Keeps.of_shifts {i : Instr} {a b : View} (h : Shifts a b) : Keeps i a b where
  range := h.inRange
  staged _ c hc := absurd (by rw [h.rest]) hc
  active _ c hc := absurd (by rw [h.rest]) hc
  carrier _ hc := hc.elim (absurd (by rw [h.rest])) (absurd (by rw [h.rest]))
  supervised _ he := ⟨h.sup.enabled.trans he, h.sup.tc, h.sup.te⟩

theorem Keeps.of_eq {i : Instr} {a b : View} (h : b = a) : Keeps i a b := .of_shifts (.of_eq h)

/-- A reset answers for the ranges alone. -/
theorem Keeps.of_reset {i : Instr} {a b : View} (hi : resetRow i = true) (h : InRange a → InRange b) : Keeps i a b :=
  have never {p : Prop} (hf : resetRow i = false) : p := absurd (hi.symm.trans hf) (by decide)
  ⟨h, never, never, never, never⟩

/-- The staged records are CHANNEL_SETUP's. -/
theorem Keeps.of_staged {a b : View} (tag : Byte) (p : List Byte) (h : b = { a with staged := b.staged }) :
    Keeps (.channelSetup tag p) a b where
  range ha := h ▸ ha
  staged _ _ _ := ⟨tag, p, rfl⟩
  active _ c hc := absurd (by rw [h]) hc
  carrier _ hc := hc.elim (absurd (by rw [h])) (absurd (by rw [h]))
  supervised _ he := by
    rw [h]
    exact ⟨he, rfl, rfl⟩

/-- The active records are those of ACTIVATE, and at a period start that of its channel. -/
theorem Keeps.of_active {i : Instr} {a b : View} (h : b = { a with active := b.active })
    (hi : ∀ c, b.active c ≠ a.active c → (∃ tag p, i = .activate tag p) ∨ i = .channelPeriodStart c) : Keeps i a b where
  range ha := h ▸ ha
  staged _ c hc := absurd (by rw [h]) hc
  active _ := hi
  carrier _ hc := hc.elim (absurd (by rw [h])) (absurd (by rw [h]))
  supervised _ he := by
    rw [h]
    exact ⟨he, rfl, rfl⟩

/-- The values that CARRIER, CONVERTER, AUX_PLAN, LIMITS and SUPERVISE write in their ranges; the records stay, H and D are CARRIER's,
and supervision that is enabled stays. -/
theorem Keeps.of_settings {i : Instr} {a b : View} (hr : InRange a → InRange b) (hst : b.staged = a.staged)
    (hact : b.active = a.active) (hc : b.h ≠ a.h ∨ b.d ≠ a.d → ∃ tag p, i = .carrier tag p)
    (hsup : a.sup.enabled = true → b.sup = a.sup) : Keeps i a b where
  range := hr
  staged _ c h := absurd (congrFun hst c) h
  active _ c h := absurd (congrFun hact c) h
  carrier _ := hc
  supervised _ he := by
    rw [hsup he]
    exact ⟨he, rfl, rfl⟩

/-- Every next state of an outcome keeps the settings of s as a command may. -/
def KeepsTo (i : Instr) (s : State) (o : Host.Outcome State Fault Refusal) : Prop := ∀ t, o = .next t → Keeps i (view s) (view t)

theorem keepsTo_next {i : Instr} {s t : State} (h : Keeps i (view s) (view t)) : KeepsTo i s (.next t) := by
  intro u hu
  cases hu
  exact h

theorem keepsTo_done {i : Instr} {s t : State} (h : Keeps i (view s) (view t)) : KeepsTo i s (done t) :=
  keepsTo_next (by rw [view_settle]; exact h)

theorem keepsTo_unchanged (i : Instr) (s : State) : KeepsTo i s (.next s) := keepsTo_next (.of_eq rfl)

theorem keepsTo_shifted {i : Instr} {s t : State} (h : Shifts (view s) (view t)) : KeepsTo i s (done t) := keepsTo_done (.of_shifts h)

theorem keepsTo_same {i : Instr} {s t : State} (h : view t = view s) : KeepsTo i s (done t) := keepsTo_shifted (.of_eq h)

theorem keepsTo_ite {i : Instr} {p : Prop} [Decidable p] {s : State} {a b : Host.Outcome State Fault Refusal}
    (ha : KeepsTo i s a) (hb : KeepsTo i s b) : KeepsTo i s (if p then a else b) := by
  split_ifs
  · exact ha
  · exact hb

/-- The link's part of a request leaves the settings; the rest is the owner's. -/
theorem keepsTo_request {i : Instr} {α : Type} {type tag : Byte} {pl : Bool} {fields : Option α} {owner : α → State → State × Answer}
    {s : State} (h : ∀ a, fields = some a → Keeps i (view s) (view (owner a s).1)) :
    KeepsTo i s (takeRequest type tag pl fields owner s) := by
  rcases takeRequest_cases type tag pl fields owner s with ⟨_, h'⟩ | ⟨_, _, h'⟩ | ⟨a, _, _, _, _, h'⟩ | ⟨a, _, ha, _, h'⟩ <;> rw [h']
  · exact keepsTo_unchanged i s
  · exact keepsTo_next (.of_eq (view_replied s _ _ _))
  · exact keepsTo_next (.of_eq (view_replied s _ _ _))
  · exact keepsTo_next (by rw [view_replied]; exact h a ha)

/-- A request whose owner leaves the settings. -/
theorem keepsTo_aside {i : Instr} {α : Type} {type tag : Byte} {pl : Bool} {fields : Option α} {owner : α → State → State × Answer}
    {s : State} (h : ∀ a, view (owner a s).1 = view s) : KeepsTo i s (takeRequest type tag pl fields owner s) :=
  keepsTo_request fun a _ => .of_eq (h a)

/-! ### The owners that leave the settings -/

theorem view_onChannel {n : Nat} {owner : Chan → State → State × Answer} {s : State}
    (h : ∀ c, view (owner c s).1 = view s) : view (onChannel n owner s).1 = view s := by
  unfold onChannel
  split
  · rfl
  · exact h _

theorem view_ownSetLink (f : Nat × Nat) (s : State) : view (ownSetLink f s).1 = view s := by
  unfold ownSetLink
  split
  · rfl
  · split_ifs <;> rfl

theorem view_ownSleep (f : Unit) (s : State) : view (ownSleep f s).1 = view s := by
  unfold ownSleep
  split_ifs <;> rfl

theorem view_ownStatus (f : Nat × Nat) (s : State) : view (ownStatus f s).1 = view s := by
  unfold ownStatus
  split_ifs
  · split <;> rfl
  · split <;> rfl
  · split
    · rfl
    · split <;> rfl

theorem view_ownProfile (f : Nat × Nat × List SegmentFields) (s : State) : view (ownProfile f s).1 = view s := by
  refine view_onChannel fun c => ?_
  dsimp only
  split_ifs
  · rfl
  · rfl
  · split
    · rfl
    · exact view_modSq s c _

theorem view_ownCalibrate (n : Nat) (s : State) : view (ownCalibrate n s).1 = view s := by
  refine view_onChannel fun c => ?_
  split_ifs
  · rfl
  · rfl
  · exact view_modCh rfl rfl

theorem view_ownStart (f : Nat × Option StepFields) (s : State) : view (ownStart f s).1 = view s := by
  refine view_onChannel fun c => ?_
  dsimp only
  split
  · rfl
  · split
    · rfl
    · rfl
    · split_ifs
      · rfl
      · rfl
      · exact view_modCh rfl rfl
    · split_ifs
      · rfl
      · split
        · rfl
        · exact view_modCh rfl rfl

theorem view_ownStop (f : Nat × Nat) (s : State) : view (ownStop f s).1 = view s := by
  refine view_onChannel fun c => ?_
  split
  · unfold State.stopCoast
    split <;> simp
  · unfold State.stopBrake
    split <;> simp
  · rfl

theorem view_ownVectorSet (f : VectorFields) (s : State) : view (ownVectorSet f s).1 = view s := by
  refine view_onChannel fun c => ?_
  dsimp only
  split_ifs
  · rfl
  · rfl
  · exact view_modCh rfl rfl

theorem view_ownStepSet (f : StepSetFields) (s : State) : view (ownStepSet f s).1 = view s := by
  refine view_onChannel fun c => ?_
  dsimp only
  split_ifs
  · rfl
  · rfl
  · exact view_modCh rfl rfl

theorem view_ownClearTrip (n : Nat) (s : State) : view (ownClearTrip n s).1 = view s := by
  refine view_onChannel fun c => ?_
  split_ifs
  · rfl
  · rfl
  · exact (view_modCh rfl rfl).trans (view_modGates s c _)

/-! ### Supervision's requests (R152, R153, R159) -/

theorem shifts_ownRecover (s : State) : Shifts (view s) (view (ownRecover () s).1) := by
  unfold ownRecover
  split_ifs
  · refine .of_sup rfl ((supMoves_window s.sup true).trans ((supMoves_restart _ (Nat.zero_le _) (Nat.zero_le _)).trans ?_))
    exact supMoves_expected _ none nofun
  · exact .of_eq rfl

theorem shifts_ownHeartbeat {n : Nat} (hn : n ≤ 255) (s : State) : Shifts (view s) (view (ownHeartbeat n s).1) := by
  unfold ownHeartbeat
  split_ifs
  · exact .of_eq rfl
  · exact .of_eq rfl
  · refine shifts_modSup ⟨fun ⟨htc, hlt, hlo, hhi, hcount, hstage, hexp, _⟩ => ?_, rfl, rfl, rfl⟩
    refine ⟨htc, hlt, hlo, hhi, hcount, hstage, hexp, fun k hk => ?_⟩
    cases hk
    exact hn

theorem le_of_read1 {p : List Byte} {n : Nat} (h : read1 p = some n) : n ≤ 255 := by
  unfold read1 at h
  split at h
  · cases h
    omega
  · cases h

theorem keeps_ownSupervise {i : Instr} (f : Nat × Nat) (s : State) : Keeps i (view s) (view (ownSupervise f s).1) := by
  unfold ownSupervise
  split_ifs with hen htc hte hlt
  · exact .of_eq rfl
  · exact .of_eq rfl
  · exact .of_eq rfl
  · exact .of_eq rfl
  · obtain ⟨hlo, hhi⟩ := not_or.1 hte
    refine .of_settings (fun ⟨hset, haux, _, _, _, _, _, _, _, hhb⟩ => ⟨hset, haux, ?_⟩) rfl rfl
      (Or.elim · (absurd rfl) (absurd rfl)) fun he => absurd he hen
    exact ⟨not_lt.1 htc, not_le.1 hlt, not_lt.1 hlo, not_lt.1 hhi, Nat.zero_le _, Nat.zero_le _, nofun, hhb⟩

/-! ### CARRIER, CONVERTER, AUX_PLAN and LIMITS (R4, R103, R118, R148) -/

/-- The state in which an accepted CARRIER leaves the settings: H and D written, the aux instants modulo 2H and the waits back at 0. -/
theorem view_carrierAccepted (s : State) (h d : Nat) :
    view (State.modSched { s with tb := { s.tb with h := h, d := d } }
        (fun q => { q with aux := q.aux.map (fun a => { a with instant := a.instant % (2 * h) }) })).flushAll.carrierRestart =
      { view s with h := h, d := d, aux := s.sched.aux.map fun a => { a with instant := a.instant % (2 * h), wait := 0 } } := by
  have hmap : (s.sched.aux.map fun a : AuxEntry => { a with instant := a.instant % (2 * h) }).map
      (fun a => { a with wait := 0 }) = s.sched.aux.map fun a => { a with instant := a.instant % (2 * h), wait := 0 } :=
    List.map_map
  rw [← hmap, view_carrierRestart, view_flushAll]
  rfl

theorem keeps_ownCarrier (tag : Byte) (p : List Byte) (f : Nat × Nat) (s : State) :
    Keeps (.carrier tag p) (view s) (view (ownCarrier f s).1) := by
  unfold ownCarrier
  split_ifs with hh hd hidle
  · exact .of_eq rfl
  · exact .of_eq rfl
  · exact .of_eq rfl
  · split
    · exact .of_eq rfl
    · obtain ⟨hlo, hhi⟩ := not_or.1 hh
      dsimp only
      rw [view_carrierAccepted]
      refine .of_settings (fun ⟨⟨_, hrest⟩, ⟨_, haux⟩, hsup⟩ => ?_) rfl rfl (fun _ => ⟨tag, p, rfl⟩) fun _ => rfl
      have hpos : 0 < 2 * f.1 := by omega
      exact ⟨⟨⟨not_lt.1 hlo, not_lt.1 hhi, not_lt.1 hd⟩, hrest⟩,
        ⟨show 1 ≤ f.1 by omega, haux.map fun a ha => ⟨Nat.mod_lt _ hpos, ha.2.1, Nat.zero_le _⟩⟩, hsup⟩

theorem keeps_ownConverter {i : Instr} (f : Levels) (s : State) : Keeps i (view s) (view (ownConverter f s).1) := by
  unfold ownConverter
  split_ifs with hshunt hsense haux
  · exact .of_eq rfl
  · exact .of_eq rfl
  · exact .of_eq rfl
  · refine .of_settings (fun ⟨⟨hcar, _, hlim⟩, hrest⟩ => ⟨⟨hcar, ?_, hlim⟩, hrest⟩) rfl rfl
      (Or.elim · (absurd rfl) (absurd rfl)) fun _ => rfl
    exact ⟨not_lt.1 hshunt, not_lt.1 hsense, not_lt.1 haux⟩

theorem keeps_ownLimits {i : Instr} (f : LimitFields) (s : State) : Keeps i (view s) (view (ownLimits f s).1) := by
  unfold ownLimits
  split_ifs with hover hunder hwarn htrip _ _
  case neg =>
    refine .of_settings (fun ⟨⟨hcar, hlev, _⟩, hrest⟩ => ⟨⟨hcar, hlev, ?_⟩, hrest⟩) rfl rfl
      (Or.elim · (absurd rfl) (absurd rfl)) fun _ => rfl
    exact ⟨not_lt.1 hover, not_lt.1 hunder, not_lt.1 hwarn, not_lt.1 htrip⟩
  all_goals exact .of_eq rfl

/-- Where no field fails, every entry's instant and divider lie in their ranges. -/
theorem inRange_of_auxFailing {h : Nat} {l : List AuxFields} :
    ∀ {i : Nat}, auxFailing h i l = none → ∀ x ∈ l, EntryInRange h (Scheduling.auxEntryOf x) := by
  induction l with
  | nil => exact fun _ _ hx => by cases hx
  | cons a as ih =>
    intro i hn x hx
    unfold auxFailing at hn
    split_ifs at hn with _ hinst hdiv
    rcases List.mem_cons.1 hx with rfl | hx
    · exact ⟨not_le.1 hinst, not_lt.1 hdiv, Nat.zero_le _⟩
    · exact ih hn x hx

theorem auxInRange_writeAux {h : Nat} {l : List AuxFields} (hl : ∀ x ∈ l, EntryInRange h (Scheduling.auxEntryOf x)) :
    ∀ {plan : List AuxEntry} (i : Nat), AuxInRange h plan → AuxInRange h (writeAux plan i l) := by
  induction l with
  | nil => exact fun _ hplan => hplan
  | cons a as ih =>
    intro plan i hplan
    obtain ⟨hlen, hall⟩ := hplan
    refine ih (fun x hx => hl x (List.mem_cons_of_mem a hx)) (i + 1) ⟨by rw [List.length_set, hlen], fun x hx => ?_⟩
    rcases List.mem_or_eq_of_mem_set hx with hx | rfl
    · exact hall x hx
    · exact hl a List.mem_cons_self

theorem shifts_ownAuxPlan (f : Nat × List AuxFields) (s : State) : Shifts (view s) (view (ownAuxPlan f s).1) := by
  unfold ownAuxPlan
  split_ifs
  · exact .of_eq rfl
  · split
    · exact .of_eq rfl
    next hn => exact .of_aux rfl (auxInRange_writeAux (inRange_of_auxFailing hn) f.1)

/-! ### CHANNEL_SETUP and ACTIVATE (R19 to R22) -/

/-- A change of staged records alone. -/
theorem view_modCh_staged {s : State} {c : Chan} {f : Channel → Channel} (ha : (f (s.chan c)).active = (s.chan c).active) :
    view (s.modCh c f) = { view s with staged := (view (s.modCh c f)).staged } := by
  have active : (view (s.modCh c f)).active = (view s).active := by
    funext x
    by_cases hx : x = c
    · rw [hx]
      exact (congrArg Channel.active (State.chan_modCh_same s c f)).trans ha
    · exact congrArg Channel.active (State.chan_modCh_other s f hx)
  calc view (s.modCh c f)
      = { view s with staged := (view (s.modCh c f)).staged, active := (view (s.modCh c f)).active } := rfl
    _ = _ := by rw [active]

theorem keeps_ownSetup (tag : Byte) (p : List Byte) (f : Nat × List (Nat × Nat)) (s : State) :
    Keeps (.channelSetup tag p) (view s) (view (ownSetup f s).1) := by
  unfold ownSetup onChannel
  split
  · exact .of_eq rfl
  · dsimp only
    split
    · exact .of_eq rfl
    · exact .of_staged tag p (view_modCh_staged rfl)

/-- The copy of ACTIVATE writes active records alone. -/
theorem view_activateIdle (s : State) (c : Chan) :
    view (s.activateIdle c) = { view s with active := (view (s.activateIdle c)).active } := by
  obtain ⟨others, hrest⟩ := Settings.activateIdle_frame s c
  have staged : (view (s.activateIdle c)).staged = (view s).staged := by
    funext x
    by_cases hx : x = c
    · rw [hx]
      show ((s.activateIdle c).chan c).staged = (s.chan c).staged
      rw [Settings.chan_activateIdle]
      dsimp only
      split_ifs <;> rfl
    · exact congrArg Channel.staged (others x hx)
  calc view (s.activateIdle c)
      = { view (s.activateIdle c) with staged := (view s).staged } := by rw [← staged]
    _ = _ := by
      conv_lhs => rw [hrest]
      rfl

theorem keeps_ownActivate (tag : Byte) (p : List Byte) (n : Nat) (s : State) :
    Keeps (.activate tag p) (view s) (view (ownActivate n s).1) := by
  unfold ownActivate onChannel
  split
  · exact .of_eq rfl
  next c _ =>
    dsimp only
    by_cases hstate : (s.chan c).state = .calibrating ∨ (s.chan c).state = .tripped
    · rw [if_pos hstate]
      exact .of_eq rfl
    · rw [if_neg hstate]
      split
      · exact .of_eq rfl
      · split_ifs
        · exact .of_eq (view_modCh rfl rfl)
        · exact .of_eq rfl
        · exact .of_active (view_activateIdle s c) fun _ _ => .inl ⟨tag, p, rfl⟩

/-! ### The commands -/

theorem keeps_periodWork (s : State) (c : Chan) (t : Time) (m : Seq) :
    Keeps (.channelPeriodStart c) (view s) (view (s.periodWork c t m)) := by
  rw [view_periodWork]
  obtain ⟨hrest, hothers⟩ := view_begun s c t m
  refine .of_active hrest fun x hx => ?_
  by_cases hxc : x = c
  · exact .inr (by rw [hxc])
  · exact absurd (hothers x hxc) hx

theorem view_startConversion (s : State) (e : Entry) : view (s.startConversion e) = view s := rfl

theorem view_removeLate (s : State) (c : Chan) (e : Entry) : view (s.removeLate c e) = view s :=
  (view_modRb _ c _).trans (view_modCh rfl rfl)

theorem keepsTo_faultInputAssertion (i : Instr) (c : Chan) (s : State) : KeepsTo i s (execFaultInputAssertion c s) :=
  keepsTo_ite (keepsTo_same (view_faultAsserted _ c)) (keepsTo_same rfl)

theorem keepsTo_startUpEnd (i : Instr) (s : State) : KeepsTo i s (execStartUpEnd s) := by
  unfold execStartUpEnd
  split
  next left _ =>
    have h := shifts_endStartUp (s.elapse left)
    rw [view_elapse] at h
    exact keepsTo_shifted h
  · exact keepsTo_unchanged i s

theorem keepsTo_wakeComplete (i : Instr) (s : State) : KeepsTo i s (execWakeComplete s) := by
  unfold execWakeComplete
  split
  next left _ _ =>
    have h := shifts_wakeNow (s.elapse left)
    rw [view_elapse] at h
    exact keepsTo_shifted h
  · exact keepsTo_unchanged i s

theorem keepsTo_quietEntry (i : Instr) (s : State) : KeepsTo i s (execQuietEntry s) := by
  unfold execQuietEntry
  split
  next left _ =>
    have h := shifts_quietEntryNow (s.elapse left)
    rw [view_elapse] at h
    exact keepsTo_shifted ((view_enterGap _).symm ▸ h)
  · exact keepsTo_unchanged i s

theorem keepsTo_masterPeriodStart (i : Instr) (s : State) : KeepsTo i s (execMasterPeriodStart s) := by
  have h := shifts_masterWork (s.waitUntil s.tb.masterNext)
  rw [view_waitUntil] at h
  exact keepsTo_ite (keepsTo_shifted h) (keepsTo_unchanged i s)

theorem keepsTo_channelPeriodStart (c : Chan) (s : State) : KeepsTo (.channelPeriodStart c) s (execChannelPeriodStart c s) := by
  unfold execChannelPeriodStart
  split
  next t m _ _ =>
    have h := keeps_periodWork (s.waitUntil t) c t m
    rw [view_waitUntil] at h
    exact keepsTo_done h
  · exact keepsTo_unchanged _ s

theorem keepsTo_frameSent (s : State) : KeepsTo .frameSent s (execFrameSent s) := by
  unfold execFrameSent
  split
  next e left _ =>
    exact keepsTo_done (.of_reset rfl fun hs => inRange_frameGone (s.elapse left) e (by rw [view_elapse]; exact hs))
  · exact keepsTo_unchanged _ s

theorem keepsTo_messageReset (s : State) : KeepsTo .messageReset s (execMessageReset s) := by
  unfold execMessageReset
  split
  · exact keepsTo_done (.of_reset rfl fun _ => inRange_reset)
  · exact keepsTo_unchanged _ s

theorem keepsTo_conversionStart (i : Instr) (s : State) : KeepsTo i s (execConversionStart s) := by
  unfold execConversionStart
  split
  · dsimp only
    split
    · exact keepsTo_same ((view_startConversion _ _).trans (view_ite rfl (view_waitUntil s _)))
    · exact keepsTo_unchanged i s
  · exact keepsTo_unchanged i s

theorem keepsTo_late (i : Instr) (slot : Nat) (s : State) : KeepsTo i s (execLate slot s) := by
  unfold execLate
  split
  · split
    · exact keepsTo_same ((view_removeLate _ _ _).trans (view_waitUntil s _))
    · exact keepsTo_unchanged i s
  · exact keepsTo_unchanged i s

theorem keepsTo_gateEdge (i : Instr) (c : Chan) (x : Phase) (s : State) : KeepsTo i s (execGateEdge c x s) := by
  unfold execGateEdge
  dsimp only
  split
  · split
    · exact keepsTo_unchanged i s
    · exact keepsTo_same ((view_modGates _ c _).trans (view_waitUntil s _))
  · exact keepsTo_unchanged i s

theorem keepsTo_characterArrival (i : Instr) (char : Byte) (framingError : Bool) (s : State) :
    KeepsTo i s (execCharacterArrival char framingError s) :=
  keepsTo_ite
    (keepsTo_ite (keepsTo_ite (keepsTo_unchanged i s) (keepsTo_same (view_receive _ _ _)))
      (keepsTo_same ((view_receive _ _ _).trans (view_wakeBegins s char))))
    (keepsTo_unchanged i s)

/-- Every command keeps the ranges, and writes its own settings alone. -/
theorem exec_keeps (i : Instr) (s : State) : KeepsTo i s (exec i s) := by
  cases i with
  | ident tag p => exact keepsTo_aside (owner := ownIdent) fun _ => rfl
  | setLink tag p => exact keepsTo_aside (view_ownSetLink · s)
  | reset tag p => exact keepsTo_aside (owner := ownReset) fun _ => rfl
  | sleep tag p => exact keepsTo_aside (view_ownSleep · s)
  | deviceStatus tag p => exact keepsTo_aside (view_ownStatus · s)
  | channelStatus tag p => exact keepsTo_aside (view_ownStatus · s)
  | recover tag p => exact keepsTo_request fun _ _ => .of_shifts (shifts_ownRecover s)
  | supervise tag p => exact keepsTo_request fun f _ => keeps_ownSupervise f s
  | heartbeat tag p => exact keepsTo_request fun _ hn => .of_shifts (shifts_ownHeartbeat (le_of_read1 hn) s)
  | carrier tag p => exact keepsTo_request fun f _ => keeps_ownCarrier tag p f s
  | converter tag p => exact keepsTo_request fun f _ => keeps_ownConverter f s
  | auxPlan tag p => exact keepsTo_request fun f _ => .of_shifts (shifts_ownAuxPlan f s)
  | limits tag p => exact keepsTo_request fun f _ => keeps_ownLimits f s
  | channelSetup tag p => exact keepsTo_request fun f _ => keeps_ownSetup tag p f s
  | activate tag p => exact keepsTo_request fun n _ => keeps_ownActivate tag p n s
  | profile tag p => exact keepsTo_aside (view_ownProfile · s)
  | calibrate tag p => exact keepsTo_aside (view_ownCalibrate · s)
  | start tag p => exact keepsTo_aside (view_ownStart · s)
  | stopCoast tag p => exact keepsTo_aside (view_ownStop · s)
  | stopBrake tag p => exact keepsTo_aside (view_ownStop · s)
  | vectorSet tag p => exact keepsTo_aside (view_ownVectorSet · s)
  | stepSet tag p => exact keepsTo_aside (view_ownStepSet · s)
  | clearTrip tag p => exact keepsTo_aside (view_ownClearTrip · s)
  | unknownType type tag p => exact keepsTo_ite (keepsTo_unchanged _ s) (keepsTo_same rfl)
  | powerOnReset valid => exact keepsTo_done (.of_reset rfl fun _ => inRange_reset)
  | pinReset => exact keepsTo_done (.of_reset rfl fun _ => inRange_reset)
  | resetRelease => exact keepsTo_ite (keepsTo_same rfl) (keepsTo_unchanged _ s)
  | startUpEnd => exact keepsTo_startUpEnd _ s
  | wakeComplete => exact keepsTo_wakeComplete _ s
  | quietEntry => exact keepsTo_quietEntry _ s
  | frameSent => exact keepsTo_frameSent s
  | messageReset => exact keepsTo_messageReset s
  | masterPeriodStart => exact keepsTo_masterPeriodStart _ s
  | busStale => exact keepsTo_same (view_busStaleStep s)
  | channelPeriodStart c => exact keepsTo_channelPeriodStart c s
  | stale c => exact keepsTo_same (view_ite (view_queued (view_modCh rfl rfl) _ _ _) rfl)
  | staleTrip c => exact keepsTo_same (view_ite (view_reachCause s c _) rfl)
  | calTimeout c => exact keepsTo_same (view_ite (view_calFailed s c _) rfl)
  | lostSync c => exact keepsTo_same (view_lostSyncStep s c)
  | calDone c => exact keepsTo_same (view_calDoneStep s c)
  | currentLimit c => exact keepsTo_same (view_limitStep s c _)
  | handover c tzc => exact keepsTo_ite (keepsTo_same (view_rampCrossing s c tzc false)) (keepsTo_unchanged _ s)
  | conversionStart => exact keepsTo_conversionStart _ s
  | late slot => exact keepsTo_late _ slot s
  | gateEdge c x => exact keepsTo_gateEdge _ c x s
  | faultInputAssertion c => exact keepsTo_faultInputAssertion _ c s
  | faultInputRelease c => exact keepsTo_ite (keepsTo_same rfl) (keepsTo_same rfl)
  | slowStep => exact keepsTo_ite (keepsTo_shifted (shifts_slowStep s)) (keepsTo_unchanged _ s)
  | windowExpiry => exact keepsTo_ite (keepsTo_shifted (shifts_expiryStep s)) (keepsTo_unchanged _ s)
  | characterArrival char framingError => exact keepsTo_characterArrival _ char framingError s
  | frameTimeout =>
    exact keepsTo_ite (keepsTo_same ((view_receive _ _ _).trans ((view_linkError _ _).trans (view_elapse s _)))) (keepsTo_unchanged _ s)
  | setLinkInForce | gapEnd | conversionComplete raw | pendingTurnOn c x side =>
    simp only [exec, execSetLinkInForce, execGapEnd, execConversionComplete, execPendingTurnOn]
    split
    · exact keepsTo_same (by simp)
    · exact keepsTo_unchanged _ s
  | halfPeriodPoint c =>
    simp only [exec, execHalfPeriodPoint]
    split
    · exact keepsTo_same ((view_applyCompare _ c _ _).trans ((view_modCh rfl rfl).trans (view_waitUntil s _)))
    · exact keepsTo_unchanged _ s
  | commutationDue c =>
    simp only [exec, execCommutationDue]
    split
    · exact keepsTo_ite (keepsTo_unchanged _ s) (keepsTo_same (by simp))
    · exact keepsTo_unchanged _ s
  | periodReport c =>
    simp only [exec, execPeriodReport]
    split
    · exact keepsTo_ite (keepsTo_same (view_emitReport s c _)) (keepsTo_unchanged _ s)
    · exact keepsTo_unchanged _ s

/-! ### The idle step and the obligations -/

/-- With no command waiting the settings stand still. -/
theorem view_idle (s : State) : view s.idle = view s := by
  have raised : ∀ i (b : Bool), view (s.raise i b) = view s := by
    intro i b
    cases b <;> rfl
  unfold State.idle
  dsimp only
  split
  · exact raised _ _
  · split
    · exact raised _ _
    · exact view_elapse s 1

/-- Settles O9: the front command keeps the ranges, and the idle step leaves every setting. -/
theorem settingsStayInRange : Obligations.SettingsStayInRange := by
  intro s t hs ht
  rw [← inRange_view] at hs ⊢
  unfold step at ht
  split at ht
  next i rest _ => exact (exec_keeps i { s with pending := rest } t ht).range hs
  next =>
    cases ht
    rw [view_idle]
    exact hs

/-- Settles O14: each clause is what every command keeps. -/
theorem settingsAreWrittenByTheirRequestsAlone : Obligations.SettingsAreWrittenByTheirRequestsAlone := by
  intro i s t c ht hi
  obtain ⟨-, hstaged, hactive, hcarrier, hsup⟩ := exec_keeps i s t ht
  exact ⟨hstaged hi c, hactive hi c, hcarrier hi, hsup hi⟩

end Sys2Proof.SettingsFrame
